-- ==== Sys2Proof/Word.lean ====
section
/-! DEFINITION. The widths of ICSC-FE: the byte every register and stream moves (R24, R63), the 12-bit host
address (R60) and the 22-bit listing word of a host bus access (R100). Arithmetic on bytes is `BitVec`
addition, which is the modulo-256 addition of R9. -/

namespace Sys2Proof

/-- One byte: a host register, a buffer cell, a byte of either serial stream (R24, R63). -/
abbrev Byte := BitVec 8

/-- A host address, 12 bits (R60). -/
abbrev Addr := BitVec 12

/-- The 22-bit transaction word of a host bus access: bit 21 W, bit 20 R, bits 19:8 A, bits 7:0 D (R100). -/
abbrev BusWord := BitVec 22

end Sys2Proof
end

