-- ==== Sys2Proof/Machine/Constants.lean ====
section
/-! DEFINITION. The fixed constants of R6, MAX_LEN among them, the result codes of R321 and the host addresses of R24 that rules
name, kept as named constants as 93 #3 asks. -/

namespace Sys2Proof.Machine

/-- BCAST_ADDR, the broadcast address (R6, R136). -/
def bcastAddr : Byte := 0x00#8
/-- RELAY_ADDR, which has no behaviour of its own (R6, R137). -/
def relayAddr : Byte := 0x09#8
/-- CMD_PING (R6, R139). -/
def cmdPing : Byte := 0x05#8
/-- CMD_PONG (R6, R140). -/
def cmdPong : Byte := 0x06#8
/-- CMD_QSTAT (R6, R141). -/
def cmdQstat : Byte := 0x07#8
/-- CMD_RSTAT (R6, R141). -/
def cmdRstat : Byte := 0x08#8
/-- The value 0x09 as a command code (R98, R142). -/
def cmdRelay : Byte := 0x09#8
/-- CMD_CATCHALL, never sent (R6, R143). -/
def cmdCatchall : Byte := 0xFF#8

/-- MAX_LEN, the longest payload: LEN is a single byte (R6). -/
abbrev maxLen : Nat := 255

/-- OK (R321). -/
def resOk : Byte := 0x00#8
/-- ERR_STATE (R321). -/
def errState : Byte := 0x01#8
/-- ERR_NOT_OPEN (R321). -/
def errNotOpen : Byte := 0x02#8
/-- ERR_RESOURCE (R321). -/
def errResource : Byte := 0x03#8
/-- ERR_LEN (R321). -/
def errLen : Byte := 0x04#8
/-- ERR_CMD (R321). -/
def errCmd : Byte := 0x05#8
/-- ERR_PARAM (R321). -/
def errParam : Byte := 0x06#8
/-- ERR_ILLEGAL (R321). -/
def errIllegal : Byte := 0x07#8

/-- The address of COMMAND (R28). -/
def addrCommand : Addr := 0x003#12
/-- The address of STATUS (R29). -/
def addrStatus : Addr := 0x004#12
/-- The address of RESULT (R30). -/
def addrResult : Addr := 0x005#12
/-- The address of FRAME_ACK (R37). -/
def addrFrameAck : Addr := 0x014#12
/-- The host address of TXBUF[0] (R40). -/
abbrev txbufBase : Nat := 0x100
/-- The host address of RXBUF[0] (R41). -/
abbrev rxbufBase : Nat := 0x200

end Sys2Proof.Machine
end

