-- ==== Sys2Proof/Syntax.lean ====
section
/-! DEFINITION. The instructions of ICSC-FE: one constructor per row of spec/opcode_table.json, in the table's
order and in its three encoding spaces: COMMAND bytes (R95 to R97), host bus words (R100) and the command
codes of received frames (R98). -/

namespace Sys2Proof

/-- The rows of spec/opcode_table.json. -/
inductive Instr
  /-- OPEN, COMMAND 0x01 (R262). -/
  | cmdOpen
  /-- CLOSE, COMMAND 0x02 (R263). -/
  | cmdClose
  /-- SEND_RAW, COMMAND 0x03 (R211). -/
  | sendRaw
  /-- SEND_STR, COMMAND 0x04 (R212). -/
  | sendStr
  /-- SEND_I8, COMMAND 0x05 (R213). -/
  | sendI8
  /-- SEND_I16, COMMAND 0x06 (R214). -/
  | sendI16
  /-- SEND_I32, COMMAND 0x07 (R215). -/
  | sendI32
  /-- BSEND_RAW, COMMAND 0x13 (R216). -/
  | bsendRaw
  /-- BSEND_STR, COMMAND 0x14 (R217). -/
  | bsendStr
  /-- BSEND_I8, COMMAND 0x15 (R218). -/
  | bsendI8
  /-- BSEND_I16, COMMAND 0x16 (R219). -/
  | bsendI16
  /-- BSEND_I32, COMMAND 0x17 (R220). -/
  | bsendI32
  /-- WR: a host bus write of byte `d` to address `a` (R266). -/
  | wr (a : Addr) (d : Byte)
  /-- RD: a host bus read of address `a` (R267). -/
  | rd (a : Addr)
  /-- WR_COMMAND: a host bus write of `c` to COMMAND, 0x003 (R261). -/
  | wrCommand (c : Byte)
  /-- WR_STATUS__clear_DONE: a host bus write of `d` to STATUS, 0x004 (R265). -/
  | wrStatus (d : Byte)
  /-- WR_FRAME_ACK: a host bus write of `d` to FRAME_ACK, 0x014 (R179). -/
  | wrFrameAck (d : Byte)
  /-- PING: a received, validated frame with CMD 0x05 (R139, R173). -/
  | ping
  /-- PONG: a received, validated frame with CMD 0x06 (R140). -/
  | pong
  /-- QSTAT: a received, validated frame with CMD 0x07 (R141). -/
  | qstat
  /-- RSTAT: a received, validated frame with CMD 0x08 (R141). -/
  | rstat
  /-- RELAY: a received, validated frame with CMD 0x09 (R142). -/
  | relay
  /-- CATCHALL: a received, validated frame with CMD 0xFF (R143). -/
  | catchall
  deriving DecidableEq, Repr

end Sys2Proof
end

