-- ==== Sys2Proof/WellFormed.lean ====
section
/-! DEFINITION. Which instructions are the reading of some word. The only check is on WR: the table gives the
addresses COMMAND, STATUS and FRAME_ACK rows of their own, so a write there is read as that row and
never as WR. (The meaning of WR still covers those addresses, as R266 does.) -/

namespace Sys2Proof

/-- An address that has a row of its own in the table: COMMAND 0x003, STATUS 0x004, FRAME_ACK 0x014. -/
def hasOwnWriteRow (a : Addr) : Bool :=
  a == 0x003#12 || a == 0x004#12 || a == 0x014#12

/-- An instruction is well formed when some word is read as it. -/
def Instr.wf : Instr → Bool
  | .wr a _ => !hasOwnWriteRow a
  | .cmdOpen | .cmdClose => true
  | .sendRaw | .sendStr | .sendI8 | .sendI16 | .sendI32 => true
  | .bsendRaw | .bsendStr | .bsendI8 | .bsendI16 | .bsendI32 => true
  | .rd _ | .wrCommand _ | .wrStatus _ | .wrFrameAck _ => true
  | .ping | .pong | .qstat | .rstat | .relay | .catchall => true

end Sys2Proof
end

