-- ==== Sys2Proof/Decode.lean ====
section
/-! DEFINITION. The decoder of the three encoding spaces, total on every word and rejecting by name, then the
encoder, written from the same encodings (R95 to R100). -/

namespace Sys2Proof

/-- An encoded instruction, in the space it belongs to. -/
inductive Encoded
  /-- A byte written to COMMAND (R95). -/
  | command (b : Byte)
  /-- A host bus transaction word (R100). -/
  | bus (w : BusWord)
  /-- The CMD byte of a frame (R98). -/
  | frameCmd (b : Byte)
  deriving DecidableEq, Repr

/-- Why a word is no instruction of the table. -/
inductive DecodeError
  /-- One of the 244 illegal COMMAND values (R97). -/
  | illegalCommand
  /-- A bus word with W = R, which is no access (R100). -/
  | noAccess
  /-- A bus word with R = 1, W = 0 and D ≠ 0: the listing word of a read has D = 0 (R100). -/
  | readWithData
  /-- A command code without a row: a user command (R98). -/
  | userCommand
  deriving DecidableEq, Repr

/-- Bits 7:5 of a COMMAND byte, reserved (R95). -/
def commandReserved (b : Byte) : BitVec 3 := b.extractLsb' 5 3
/-- Bit 4 of a COMMAND byte, B (R95). -/
def commandB (b : Byte) : Bool := b.getLsbD 4
/-- Bits 3:0 of a COMMAND byte, OP (R95). -/
def commandOp (b : Byte) : BitVec 4 := b.extractLsb' 0 4

/-- The unicast operations and the lifecycle commands, B = 0 (R96). -/
def decodeUnicastOp (op : BitVec 4) : Except DecodeError Instr :=
  match op with
  | 0x1#4 => .ok .cmdOpen
  | 0x2#4 => .ok .cmdClose
  | 0x3#4 => .ok .sendRaw
  | 0x4#4 => .ok .sendStr
  | 0x5#4 => .ok .sendI8
  | 0x6#4 => .ok .sendI16
  | 0x7#4 => .ok .sendI32
  | _ => .error .illegalCommand

/-- The broadcast operations, B = 1, legal only with OP 0x3 to 0x7 (R95, R96). -/
def decodeBroadcastOp (op : BitVec 4) : Except DecodeError Instr :=
  match op with
  | 0x3#4 => .ok .bsendRaw
  | 0x4#4 => .ok .bsendStr
  | 0x5#4 => .ok .bsendI8
  | 0x6#4 => .ok .bsendI16
  | 0x7#4 => .ok .bsendI32
  | _ => .error .illegalCommand

/-- A COMMAND byte (R95 to R97). -/
def decodeCommand (b : Byte) : Except DecodeError Instr :=
  if commandReserved b ≠ 0#3 then .error .illegalCommand
  else if commandB b then decodeBroadcastOp (commandOp b)
  else decodeUnicastOp (commandOp b)

/-- Bit 21 of a bus word, W (R100). -/
def busW (w : BusWord) : Bool := w.getLsbD 21
/-- Bit 20 of a bus word, R (R100). -/
def busR (w : BusWord) : Bool := w.getLsbD 20
/-- Bits 19:8 of a bus word, the address (R100). -/
def busA (w : BusWord) : Addr := w.extractLsb' 8 12
/-- Bits 7:0 of a bus word, the data (R100). -/
def busD (w : BusWord) : Byte := w.extractLsb' 0 8

/-- The row of a write: COMMAND, STATUS and FRAME_ACK have rows of their own (R261, R265, R179). -/
def decodeWrite (a : Addr) (d : Byte) : Instr :=
  if a = Machine.addrCommand then .wrCommand d
  else if a = Machine.addrStatus then .wrStatus d
  else if a = Machine.addrFrameAck then .wrFrameAck d
  else .wr a d

/-- A host bus transaction word (R100). -/
def decodeBus (w : BusWord) : Except DecodeError Instr :=
  match busW w, busR w with
  | true, false => .ok (decodeWrite (busA w) (busD w))
  | false, true => if busD w = 0#8 then .ok (.rd (busA w)) else .error .readWithData
  | true, true => .error .noAccess
  | false, false => .error .noAccess

/-- The CMD byte of a frame (R98): the reserved codes have rows, every other value is a user command. -/
def decodeFrameCmd (b : Byte) : Except DecodeError Instr :=
  if b = Machine.cmdPing then .ok .ping
  else if b = Machine.cmdPong then .ok .pong
  else if b = Machine.cmdQstat then .ok .qstat
  else if b = Machine.cmdRstat then .ok .rstat
  else if b = Machine.cmdRelay then .ok .relay
  else if b = Machine.cmdCatchall then .ok .catchall
  else .error .userCommand

/-- The decoder: total, and a rejection carries its name. -/
def decode : Encoded → Except DecodeError Instr
  | .command b => decodeCommand b
  | .bus w => decodeBus w
  | .frameCmd b => decodeFrameCmd b

/-- An 8-bit table word names no space. It is read as a COMMAND byte where that is legal and else as a frame's
CMD byte, so 0x05, 0x06 and 0x07 are SEND_I8, SEND_I16 and SEND_I32 here. DESIGN CHOICE, log 12: the machine
itself always knows which of the two it is reading. -/
def tableByteSpace (b : Byte) : Encoded :=
  match decodeCommand b, decodeFrameCmd b with
  | .ok _, _ => .command b
  | .error _, .ok _ => .frameCmd b
  | .error _, .error _ => .command b

/-- The instruction an opcode-table word of `nbits` bits is read as: 8 bits a byte of `tableByteSpace`, more
bits a bus word in the low 22 bits. -/
def decodeTableWord (nbits w : Nat) : Option Instr :=
  if nbits ≤ 8 then
    if w < 256 then (decode (tableByteSpace (BitVec.ofNat 8 w))).toOption else none
  else
    if w < 4194304 then (decode (.bus (BitVec.ofNat 22 w))).toOption else none

/-- The bus word of a write: W = 1, R = 0 (R100). -/
def writeWord (a : Addr) (d : Byte) : BusWord := (0b10#2 ++ a) ++ d

/-- The bus word of a read: W = 0, R = 1, D = 0 (R100). -/
def readWord (a : Addr) : BusWord := (0b01#2 ++ a) ++ 0x00#8

/-- The COMMAND byte with reserved bits 000 and the fields B and OP (R95). -/
def commandByte (b : Bool) (op : BitVec 4) : Byte := (0b000#3 ++ BitVec.ofBool b) ++ op

/-- The words of an instruction (R96, R98, R100). -/
def encode : Instr → Encoded
  | .cmdOpen => .command (commandByte false 0x1#4)
  | .cmdClose => .command (commandByte false 0x2#4)
  | .sendRaw => .command (commandByte false 0x3#4)
  | .sendStr => .command (commandByte false 0x4#4)
  | .sendI8 => .command (commandByte false 0x5#4)
  | .sendI16 => .command (commandByte false 0x6#4)
  | .sendI32 => .command (commandByte false 0x7#4)
  | .bsendRaw => .command (commandByte true 0x3#4)
  | .bsendStr => .command (commandByte true 0x4#4)
  | .bsendI8 => .command (commandByte true 0x5#4)
  | .bsendI16 => .command (commandByte true 0x6#4)
  | .bsendI32 => .command (commandByte true 0x7#4)
  | .wr a d => .bus (writeWord a d)
  | .rd a => .bus (readWord a)
  | .wrCommand c => .bus (writeWord Machine.addrCommand c)
  | .wrStatus d => .bus (writeWord Machine.addrStatus d)
  | .wrFrameAck d => .bus (writeWord Machine.addrFrameAck d)
  | .ping => .frameCmd Machine.cmdPing
  | .pong => .frameCmd Machine.cmdPong
  | .qstat => .frameCmd Machine.cmdQstat
  | .rstat => .frameCmd Machine.cmdRstat
  | .relay => .frameCmd Machine.cmdRelay
  | .catchall => .frameCmd Machine.cmdCatchall

end Sys2Proof
end

