-- ==== Sys2Proof/Config.lean ====
section
/-! DEFINITION. What an implementation of ICSC-FE fixes: its parameters (00_scope.md section 4) and the one
value the spec leaves unspecified, the contents of the buffers after power-up (R50). -/

namespace Sys2Proof.Config

/-- The parameters of one ICSC-FE: the four sentinel codes (R5) and the idle limit T_RXIDLE in clock cycles,
where 0 means disabled (R7). They do not change while the block runs (R22). -/
structure Params where
  soh : Byte
  stx : Byte
  etx : Byte
  eot : Byte
  tRxIdle : BitVec 32
  deriving DecidableEq, Repr

/-- The four sentinel codes are pairwise distinct (D2). -/
abbrev Params.Distinct (p : Params) : Prop :=
  p.soh ≠ p.stx ∧ p.soh ≠ p.etx ∧ p.soh ≠ p.eot ∧ p.stx ≠ p.etx ∧ p.stx ≠ p.eot ∧ p.etx ≠ p.eot

/-- The default sentinel codes of R5, and the idle abort disabled.
PRESUMED (the spec marks the defaults as general knowledge, 93 G1) and, for T_RXIDLE = 0, DESIGN CHOICE, log 4. -/
def defaults : Params where
  soh := 0x01#8
  stx := 0x02#8
  etx := 0x03#8
  eot := 0x04#8
  tRxIdle := 0#32

/-- FREE VALUE (R50, 93 #5): what the buffer byte at a host address holds while no step has written it since
power-up. The first argument names the power-up. It has no value that a proof can see, log 6. -/
opaque powerUpByte : Nat → Nat → Byte

end Sys2Proof.Config
end

