-- ==== Sys2Proof/Machine/State.lean ====
section
/-! DEFINITION. The whole state of one ICSC-FE (R22) as plain data, with the model's own fields that hold what
the spec leaves to the outside: the parameters (R5, R7), the input ports (R51), the bytes the transport offers,
the turns to come (R12) and what has been observed (R14). -/

namespace Sys2Proof.Machine

/-- `life`, the endpoint lifecycle state (R23). -/
inductive Life
  /-- L_UNINIT = 0. -/
  | uninit
  /-- L_RUNNING = 1. -/
  | running
  /-- L_CLOSING = 2. -/
  | closing
  /-- L_STOPPED = 3. -/
  | stopped
  deriving DecidableEq, Repr

/-- `rx.phase` (R42, R160). -/
inductive RxPhase
  /-- RX_SEEK = 0. -/
  | seek
  /-- RX_WAIT_LOCK = 1. -/
  | waitLock
  /-- RX_COLLECT = 2. -/
  | collect
  /-- RX_CHK_ETX = 3. -/
  | chkEtx
  /-- RX_READ_CHK = 4. -/
  | readChk
  /-- RX_CHK_EOT = 5. -/
  | chkEot
  /-- RX_PONG_WAIT = 6. -/
  | pongWait
  /-- RX_DELIVER = 7. -/
  | deliver
  deriving DecidableEq, Repr

/-- `tx.phase` (R43). -/
inductive TxPhase
  /-- T_IDLE = 0. -/
  | idle
  /-- T_SOH = 1. -/
  | soh
  /-- T_DEST = 2. -/
  | dest
  /-- T_ORIG = 3. -/
  | orig
  /-- T_CMD = 4. -/
  | cmd
  /-- T_LEN = 5. -/
  | len
  /-- T_STX = 6. -/
  | stx
  /-- T_PAYLOAD = 7. -/
  | payload
  /-- T_ETX = 8. -/
  | etx
  /-- T_CHK = 9. -/
  | chk
  /-- T_EOT = 10. -/
  | eot
  /-- T_FLUSH = 11. -/
  | flush
  deriving DecidableEq, Repr

/-- `lock.owner` (R45). -/
inductive LockOwner
  /-- NONE = 0. -/
  | none
  /-- RX = 1, the receive state machine. -/
  | rx
  /-- TXH = 2, the transmit engine serving `hjob`. -/
  | txh
  /-- TXP = 3, the transmit engine serving `pjob`. -/
  | txp
  deriving DecidableEq, Repr

/-- `hjob.kind` (R44). -/
inductive JobKind
  | raw
  | str
  | i8
  | i16
  | i32
  deriving DecidableEq, Repr

/-- The latched configuration `cfg` (R38). -/
structure Cfg where
  station : Byte
  sohN : Byte
  deEn : Bool
  deriving DecidableEq, Repr

/-- The header window `rx.win[0..4]`: `w0` oldest, `w4` newest (R42). -/
structure Window where
  w0 : Byte
  w1 : Byte
  w2 : Byte
  w3 : Byte
  w4 : Byte
  deriving DecidableEq, Repr

/-- The receive parser state (R42). -/
structure Rx where
  phase : RxPhase
  win : Window
  wcnt : BitVec 3
  hDest : Byte
  hSrc : Byte
  hCmd : Byte
  hLen : Byte
  acc : Byte
  cursor : Byte
  trl : Byte
  idle : BitVec 32
  deriving DecidableEq, Repr

/-- The transmit engine state (R43). -/
structure Tx where
  phase : TxPhase
  idx : Byte
  acc : Byte
  deriving DecidableEq, Repr

/-- `hjob`, the host send job (R44). -/
structure HJob where
  valid : Bool
  dest : Byte
  orig : Byte
  cmd : Byte
  len : Byte
  kind : JobKind
  val : BitVec 32
  deriving DecidableEq, Repr

/-- `pjob`, the PONG job (R44): its command is always CMD_PONG and its payload is RXBUF. -/
structure PJob where
  valid : Bool
  dest : Byte
  orig : Byte
  len : Byte
  deriving DecidableEq, Repr

/-- The levels of the input ports a step reads (R51). -/
structure Inputs where
  xportOk : Bool
  deOk : Bool
  txReady : Bool
  flushDone : Bool
  deriving DecidableEq, Repr

/-- What the host drives on its bus in one cycle: `h_we`, `h_re`, `h_addr`, `h_wdata` (R51, R80). -/
structure HostCycle where
  we : Bool
  re : Bool
  addr : Addr
  wdata : Byte
  deriving DecidableEq, Repr

/-- A step of the environment ENV (R11, R51). -/
inductive EnvEvent
  /-- The transport has one more received byte to offer. -/
  | offer (b : Byte)
  /-- `xport_ok` takes a level. -/
  | xportOk (l : Bool)
  /-- `de_ok` takes a level. -/
  | deOk (l : Bool)
  /-- `tx_ready` takes a level. -/
  | txReady (l : Bool)
  /-- `flush_done` takes a level. -/
  | flushDone (l : Bool)
  deriving DecidableEq, Repr

/-- Which agent moves next (R11, R12). The order is free in the spec; here it is data, log 1. -/
inductive Turn
  /-- HOST: one host bus cycle (R80). -/
  | host (c : HostCycle)
  /-- CTL: CTL.CLOSE_DONE (R264). -/
  | ctl
  /-- RXF: its enabled step (41_receive_fsm.md). -/
  | rxf
  /-- TXE: its enabled step (42_transmit.md). -/
  | txe
  /-- TMR: one clock cycle in which no received byte is taken (R333). -/
  | tick
  /-- TMR: RX.IDLE_ABORT (R180). -/
  | idleAbort
  /-- ENV: an input changes. -/
  | env (e : EnvEvent)
  /-- A clock edge with `rst = 1`, whatever the host drives in that cycle (R360). -/
  | rst (c : HostCycle)
  deriving DecidableEq, Repr

/-- One observation (R14). -/
inductive Obs
  /-- A byte transferred on the transmit stream. -/
  | tx (b : Byte)
  /-- `de` changes to this level. -/
  | de (l : Bool)
  /-- `flush_req` rises. -/
  | flushReq
  /-- A host read returns this value. -/
  | read (v : Byte)
  /-- `irq` changes to this level. -/
  | irq (l : Bool)
  deriving DecidableEq, Repr

/-- The two buffers as (host address, byte) pairs: TXBUF at 0x100 to 0x1FF and RXBUF at 0x200 to 0x2FE (R61).
Addresses strictly rise, and an address is listed exactly when some step has written it, log 8. -/
abbrev Memory := List Host.Cell

/-- Why the machine stops. The spec gives the block no fault state (R320); every one of these is safe. -/
inductive Fault
  /-- Raised by `step` when two sentinel codes are equal: a model is not required to handle that (D2, 93 #2).
  Safe, log 5. -/
  | sentinelsNotDistinct
  /-- Raised by the transmit engine when it must read the current job and the engine does not hold the lock
  (R221). No run reaches it (R48 item 5). Safe, log 15. -/
  | noCurrentJob
  /-- Raised by T_PAYLOAD when `tx.idx` is outside the job's payload, where R221 gives no byte. No run reaches
  it. Safe, log 15. -/
  | payloadIndex
  /-- Raised by RX.COLLECT at `rx.cursor` = 255, past RXBUF's end, which R169 says is never written. No run
  reaches it. Safe, log 15. -/
  | rxbufIndex
  deriving DecidableEq, Repr

/-- Why an instruction has no meaning. -/
inductive Refusal
  /-- Raised by an arm of `exec` whose instruction is not modelled yet. Safe. No arm does. -/
  | notModelled (mnemonic : String)
  deriving DecidableEq, Repr

/-- The complete state of one ICSC-FE instance (R22), and below it the model's own fields. -/
structure State where
  /-- The lifecycle state (R23). -/
  life : Life
  /-- CTRL (R25). -/
  ctrl : Byte
  /-- STATION (R26). -/
  station : Byte
  /-- SOH_N (R27). -/
  sohN : Byte
  /-- TX_DEST (R33). -/
  txDest : Byte
  /-- TX_CMD (R33). -/
  txCmd : Byte
  /-- TX_LEN (R34). -/
  txLen : BitVec 16
  /-- TX_VAL (R35). -/
  txVal : BitVec 32
  /-- The latched configuration (R38). -/
  cfg : Cfg
  /-- RESULT (R46). -/
  result : Byte
  /-- `done`, STATUS.DONE (R46). -/
  doneFlag : Bool
  /-- The receive parser (R42). -/
  rx : Rx
  /-- The transmit engine (R43). -/
  tx : Tx
  /-- The host send job (R44). -/
  hjob : HJob
  /-- The PONG job (R44). -/
  pjob : PJob
  /-- The channel lock's holder (R45). -/
  lock : LockOwner
  /-- The direction-control output (R39). -/
  de : Bool
  /-- The written bytes of TXBUF and RXBUF (R40, R41). -/
  buf : Memory
  /-- MODEL'S OWN: the parameters, which no step writes, log 4. -/
  par : Config.Params
  /-- MODEL'S OWN: the input ports' levels (R51), log 9. -/
  inp : Inputs
  /-- MODEL'S OWN: the received bytes the transport is offering, oldest first (R51, R161), log 10. -/
  rxIn : List Byte
  /-- MODEL'S OWN: the turns to come (R12), log 1. -/
  sched : List Turn
  /-- MODEL'S OWN: what has been observed, newest first (R14), log 11. -/
  obs : List Obs
  /-- MODEL'S OWN: names the power-up whose unwritten buffer bytes are free values (R50), log 7. -/
  powerUp : Nat
  deriving DecidableEq, Repr

/-- The receive parser after reset (R49). -/
def Rx.reset : Rx where
  phase := .seek
  win := ⟨0x00#8, 0x00#8, 0x00#8, 0x00#8, 0x00#8⟩
  wcnt := 0#3
  hDest := 0x00#8
  hSrc := 0x00#8
  hCmd := 0x00#8
  hLen := 0x00#8
  acc := 0x00#8
  cursor := 0x00#8
  trl := 0x00#8
  idle := 0#32

/-- The transmit engine after reset (R49). -/
def Tx.reset : Tx where
  phase := .idle
  idx := 0x00#8
  acc := 0x00#8

/-- The host send job after reset (R49). The kind RAW is a DESIGN CHOICE, log 19. -/
def HJob.reset : HJob where
  valid := false
  dest := 0x00#8
  orig := 0x00#8
  cmd := 0x00#8
  len := 0x00#8
  kind := .raw
  val := 0#32

/-- The PONG job after reset (R49). -/
def PJob.reset : PJob where
  valid := false
  dest := 0x00#8
  orig := 0x00#8
  len := 0x00#8

/-- The machine right after reset (R49). The buffers are unwritten (R50). Of the model's own fields: the
default parameters (log 4), every input at 1 (log 9), nothing offered, no turn to come, nothing observed. -/
def State.reset : State where
  life := .uninit
  ctrl := 0x00#8
  station := 0x00#8
  sohN := 0x01#8
  txDest := 0x00#8
  txCmd := 0x00#8
  txLen := 0#16
  txVal := 0#32
  cfg := ⟨0x00#8, 0x01#8, false⟩
  result := 0x00#8
  doneFlag := false
  rx := Rx.reset
  tx := Tx.reset
  hjob := HJob.reset
  pjob := PJob.reset
  lock := .none
  de := false
  buf := []
  par := Config.defaults
  inp := ⟨true, true, true, true⟩
  rxIn := []
  sched := []
  obs := []
  powerUp := 0

end Sys2Proof.Machine
end

