-- ==== Sys2Proof/Machine/Ops.lean ====
section
/-! DEFINITION. The named operations over the buffers, the registers, the result, the streams and the
observations that every meaning is written with. `raiseResult` is the block's one shared way to report an
outcome: the spec has no exception to take (R320, R330). -/

namespace Sys2Proof.Machine

/-! ## The buffers -/

/-- The byte some step has written at host address `a`, or none. -/
def Memory.lookup : Memory → Nat → Option Byte
  | [], _ => none
  | (k, v) :: m, a => if k = a then some v else Memory.lookup m a

/-- Write byte `v` at host address `a`, keeping the addresses strictly rising. -/
def Memory.store : Memory → Nat → Byte → Memory
  | [], a, v => [(a, v)]
  | (k, w) :: m, a, v =>
    if a < k then (a, v) :: (k, w) :: m
    else if a = k then (a, v) :: m
    else (k, w) :: Memory.store m a v

/-- An address of TXBUF or RXBUF (R61). -/
def isBufferAddr (a : Nat) : Bool :=
  decide (0x100 ≤ a) && decide (a ≤ 0x2FE)

/-- Every address of the list is above `lo` and a buffer address, and they strictly rise. -/
def Memory.risesFrom : Nat → Memory → Bool
  | _, [] => true
  | lo, (k, _) :: m => decide (lo < k) && isBufferAddr k && Memory.risesFrom k m

/-- The canonical form of the buffers' list: strictly rising buffer addresses. Every buffer address is above
0x0FF, so the bound to start from excludes none. -/
def Memory.wf (m : Memory) : Bool :=
  Memory.risesFrom 0 m

/-- The byte a buffer address holds: the one last written there, else the free value of this power-up
(R50, R71; log 6). What an unlisted address reads as is said here and nowhere else. -/
def readBuf (s : State) (a : Nat) : Byte :=
  (Memory.lookup s.buf a).getD (Config.powerUpByte s.powerUp a)

/-- TXBUF[i] (R40). -/
def txbuf (s : State) (i : Nat) : Byte :=
  readBuf s (txbufBase + i)

/-- RXBUF[i] (R41). -/
def rxbuf (s : State) (i : Nat) : Byte :=
  readBuf s (rxbufBase + i)

/-- TXBUF[i] <- v (R266). -/
def storeTxbuf (i : Nat) (v : Byte) (s : State) : State :=
  { s with buf := Memory.store s.buf (txbufBase + i) v }

/-- RXBUF[i] <- v (R169). -/
def storeRxbuf (i : Nat) (v : Byte) (s : State) : State :=
  { s with buf := Memory.store s.buf (rxbufBase + i) v }

/-! ## Registers wider than a byte -/

/-- Byte `k` of TX_LEN, little-endian (R65). -/
def lenByte (v : BitVec 16) (k : Nat) : Byte := v.extractLsb' (8 * k) 8

/-- Byte `k` of TX_VAL, little-endian (R65). -/
def valByte (v : BitVec 32) (k : Nat) : Byte := v.extractLsb' (8 * k) 8

/-- TX_LEN with its byte `k` replaced, 0 the low one, its other bits unchanged (R65, R67). -/
def setLenByte (v : BitVec 16) (k : Nat) (b : Byte) : BitVec 16 :=
  match k with
  | 0 => v.extractLsb' 8 8 ++ b
  | _ => b ++ v.extractLsb' 0 8

/-- TX_VAL with its byte `k` replaced, 0 the low one, its other bits unchanged (R65, R67). -/
def setValByte (v : BitVec 32) (k : Nat) (b : Byte) : BitVec 32 :=
  match k with
  | 0 => v.extractLsb' 8 24 ++ b
  | 1 => (v.extractLsb' 16 16 ++ b) ++ v.extractLsb' 0 8
  | 2 => (v.extractLsb' 24 8 ++ b) ++ v.extractLsb' 0 16
  | _ => b ++ v.extractLsb' 0 24

/-! ## The result -/

/-- `raise Result(code)`: x[RESULT] <- code and done <- 1 (R10). -/
def raiseResult (code : Byte) (s : State) : State :=
  { s with result := code, doneFlag := true }

/-! ## The streams and the observations -/

/-- Add one observation (R14). -/
def observe (o : Obs) (s : State) : State :=
  { s with obs := o :: s.obs }

/-- `TxPut(b)`: byte `b` is transferred on the transmit stream (R10). -/
def txPut (b : Byte) (s : State) : State :=
  observe (.tx b) s

/-- `RxTake()`: the offered byte leaves the receive stream (R10). -/
def rxTake (s : State) : State :=
  { s with rxIn := s.rxIn.tail }

/-- Add `o` if `c` holds. -/
def observeIf (c : Bool) (o : Obs) (s : State) : State :=
  if c then observe o s else s

/-- The bytes transmitted so far, oldest first, of a list of observations, newest first (R14). -/
def sentBytes : List Obs → List Byte
  | [] => []
  | .tx b :: o => sentBytes o ++ [b]
  | .de _ :: o => sentBytes o
  | .flushReq :: o => sentBytes o
  | .read _ :: o => sentBytes o
  | .irq _ :: o => sentBytes o

/-! ## Outcomes -/

/-- Apply `f` to the next state; a fault or a refusal stays as it is. -/
def mapNext (f : State → State) : Host.Outcome State Fault Refusal → Host.Outcome State Fault Refusal
  | .next s => .next (f s)
  | .fault r => .fault r
  | .refused r => .refused r

/-! ## Reset -/

/-- A clock edge with `rst = 1`: every piece of the spec's state takes its reset value (R360, R49). The buffers
keep their contents (R50); parameters, inputs, the transport's bytes, the turns to come and the observations
are not the block's state and stay. -/
def hardReset (s : State) : State :=
  { State.reset with
    buf := s.buf, par := s.par, inp := s.inp, rxIn := s.rxIn, sched := s.sched, obs := s.obs,
    powerUp := s.powerUp }

/-! ## The host bus word -/

/-- The transaction word of a host bus cycle (R80, R100): W is `h_we`, R is `h_re`, A is `h_addr`, D is
`h_wdata`, and D = 0 when the cycle writes nothing, because a read uses no data (R80). -/
def busWord (c : HostCycle) : BitVec 22 :=
  ((BitVec.ofBool c.we ++ BitVec.ofBool c.re) ++ c.addr) ++ (if c.we then c.wdata else 0x00#8)

end Sys2Proof.Machine
end

