-- ==== Sys2Proof/Machine/Flags.lean ====
section
/-! DEFINITION. Every computed flag, status byte and code: CMD_BUSY, FRAME_PEND, STATUS, RX_PHASE, TX_PHASE,
`irq` and the numbers of the named states (R23, R29, R31, R32, R42, R43, R45, R47, R326). -/

namespace Sys2Proof.Machine

/-- The number of a lifecycle state (R23). -/
def Life.code : Life → BitVec 2
  | .uninit => 0#2
  | .running => 1#2
  | .closing => 2#2
  | .stopped => 3#2

/-- The number of a receive phase (R42, R160). -/
def RxPhase.code : RxPhase → BitVec 3
  | .seek => 0#3
  | .waitLock => 1#3
  | .collect => 2#3
  | .chkEtx => 3#3
  | .readChk => 4#3
  | .chkEot => 5#3
  | .pongWait => 6#3
  | .deliver => 7#3

/-- The number of a transmit phase (R43). -/
def TxPhase.code : TxPhase → BitVec 4
  | .idle => 0#4
  | .soh => 1#4
  | .dest => 2#4
  | .orig => 3#4
  | .cmd => 4#4
  | .len => 5#4
  | .stx => 6#4
  | .payload => 7#4
  | .etx => 8#4
  | .chk => 9#4
  | .eot => 10#4
  | .flush => 11#4

/-- The number of a lock holder (R45). -/
def LockOwner.code : LockOwner → BitVec 2
  | .none => 0#2
  | .rx => 1#2
  | .txh => 2#2
  | .txp => 3#2

/-- The phases in which the receiver holds the lock (R160, R48 item 3). -/
def RxPhase.holdsLock : RxPhase → Bool
  | .collect | .chkEtx | .readChk | .chkEot => true
  | .seek | .waitLock | .pongWait | .deliver => false

/-- The phases in which the receiver takes bytes: `rx_ready` when `rst = 0` (R161). -/
def RxPhase.takesBytes : RxPhase → Bool
  | .seek | .collect | .chkEtx | .readChk | .chkEot => true
  | .waitLock | .pongWait | .deliver => false

/-- The phases in which the transmit engine offers a byte: `tx_valid` (R234). -/
def TxPhase.sendsByte : TxPhase → Bool
  | .idle | .flush => false
  | .soh | .dest | .orig | .cmd | .len | .stx | .payload | .etx | .chk | .eot => true

/-- CTRL bit 0, DE_EN (R25). -/
def ctrlDeEn (s : State) : Bool := s.ctrl.getLsbD 0
/-- CTRL bit 1, IE_FRAME (R25). -/
def ctrlIeFrame (s : State) : Bool := s.ctrl.getLsbD 1
/-- CTRL bit 2, IE_DONE (R25). -/
def ctrlIeDone (s : State) : Bool := s.ctrl.getLsbD 2

/-- CTRL with its reserved bits 7:3 at 0: {00000, v[2:0]} (R25, R266). -/
def ctrlDefined (v : Byte) : Byte := v &&& 0x07#8

/-- CMD_BUSY: 1 iff `hjob.valid = 1` or `life = L_CLOSING` (R29). -/
def cmdBusy (s : State) : Bool := s.hjob.valid || s.life == .closing

/-- FRAME_PEND: 1 iff `rx.phase = RX_DELIVER` (R29). -/
def framePend (s : State) : Bool := s.rx.phase == .deliver

/-- STATUS: bit 7 reserved, 6:5 LOCK_OWNER, 4 FRAME_PEND, 3 DONE, 2 CMD_BUSY, 1:0 STATE (R29). -/
def statusByte (s : State) : Byte :=
  ((((0#1 ++ s.lock.code) ++ BitVec.ofBool (framePend s)) ++ BitVec.ofBool s.doneFlag)
    ++ BitVec.ofBool (cmdBusy s)) ++ s.life.code

/-- RX_PHASE: {00000, rx.phase} (R31). -/
def rxPhaseByte (s : State) : Byte := 0#5 ++ s.rx.phase.code

/-- TX_PHASE: {00, pjob.valid, hjob.valid, tx.phase} (R32, R267). -/
def txPhaseByte (s : State) : Byte :=
  ((0#2 ++ BitVec.ofBool s.pjob.valid) ++ BitVec.ofBool s.hjob.valid) ++ s.tx.phase.code

/-- `irq` while `rst = 0`: a frame is pending and enabled, or a result is done and enabled (R326). -/
def irqLevel (s : State) : Bool :=
  (ctrlIeFrame s && framePend s) || (ctrlIeDone s && s.doneFlag)

/-- `flush_req` while `rst = 0`: 1 iff `tx.phase = T_FLUSH` (R234). -/
def flushReqLevel (s : State) : Bool := s.tx.phase == .flush

/-- What the outputs `de`, `flush_req` and `irq` show of a step from `s` to `t`: each change of `de`, each rise
of `flush_req`, each change of `irq`, in this order, log 11 (R14). -/
def observeOutputs (s t : State) : State :=
  observeIf (irqLevel s != irqLevel t) (.irq (irqLevel t))
    (observeIf (!flushReqLevel s && flushReqLevel t) .flushReq
      (observeIf (s.de != t.de) (.de t.de) t))

end Sys2Proof.Machine
end

