-- ==== Sys2Proof/Machine/Operands.lean ====
section
/-! DEFINITION. Every operand form: what a host address names (R24, R61), the length and destination of a send
(R210 to R220), the job being served and its payload bytes (R221). -/

namespace Sys2Proof.Machine

/-! ## What a host address names -/

/-- The targets of the host address space (R24, R61). -/
inductive Target
  | ctrl
  | station
  | sohN
  | command
  | status
  | result
  | rxPhase
  | txPhase
  | txDest
  | txCmd
  | txLen0
  | txLen1
  | txVal0
  | txVal1
  | txVal2
  | txVal3
  | rxDest
  | rxSrc
  | rxCmd
  | rxLen
  | frameAck
  | cfgStation
  | cfgSohN
  | cfgFlags
  | rxAcc
  | rxTrl
  | rxWcnt
  | deLevel
  /-- TXBUF[i] (R40). -/
  | txbuf (i : Byte)
  /-- RXBUF[i], i = 0 to 254 (R41). -/
  | rxbuf (i : Byte)
  /-- A reserved address (R62). -/
  | reserved
  deriving DecidableEq, Repr

/-- The register at an address below 0x100 (R24). -/
def registerTarget (a : Byte) : Target :=
  match a with
  | 0x00#8 => .ctrl
  | 0x01#8 => .station
  | 0x02#8 => .sohN
  | 0x03#8 => .command
  | 0x04#8 => .status
  | 0x05#8 => .result
  | 0x06#8 => .rxPhase
  | 0x07#8 => .txPhase
  | 0x08#8 => .txDest
  | 0x09#8 => .txCmd
  | 0x0A#8 => .txLen0
  | 0x0B#8 => .txLen1
  | 0x0C#8 => .txVal0
  | 0x0D#8 => .txVal1
  | 0x0E#8 => .txVal2
  | 0x0F#8 => .txVal3
  | 0x10#8 => .rxDest
  | 0x11#8 => .rxSrc
  | 0x12#8 => .rxCmd
  | 0x13#8 => .rxLen
  | 0x14#8 => .frameAck
  | 0x15#8 => .cfgStation
  | 0x16#8 => .cfgSohN
  | 0x17#8 => .cfgFlags
  | 0x18#8 => .rxAcc
  | 0x19#8 => .rxTrl
  | 0x1A#8 => .rxWcnt
  | 0x1B#8 => .deLevel
  | _ => .reserved

/-- What a host address names (R61): the high four bits choose registers, TXBUF, RXBUF or reserved. -/
def target (a : Addr) : Target :=
  match (a.extractLsb' 8 4 : BitVec 4) with
  | 0x0#4 => registerTarget (a.extractLsb' 0 8)
  | 0x1#4 => .txbuf (a.extractLsb' 0 8)
  | 0x2#4 => if (a.extractLsb' 0 8 : Byte) = 0xFF#8 then .reserved else .rxbuf (a.extractLsb' 0 8)
  | _ => .reserved

/-! ## The operands of a send -/

/-- The length of a raw send: TX_LEN if it is at most MAX_LEN, else too long (R211). -/
def rawLen (s : State) : Option Byte :=
  if s.txLen.toNat ≤ maxLen then some (lenByte s.txLen 0) else none

/-- The least index from `i` on, among the next `n`, whose TXBUF byte is 0x00. -/
def firstZeroFrom (s : State) : Nat → Nat → Option Nat
  | 0, _ => none
  | n + 1, i => if txbuf s i = 0x00#8 then some i else firstZeroFrom s n (i + 1)

/-- The length of a string send: the least i in 0..MAX_LEN with TXBUF[i] = 0x00, else too long (R212). -/
def strLen (s : State) : Option Byte :=
  (firstZeroFrom s (maxLen + 1) 0).map (BitVec.ofNat 8)

/-- The destination of a send: BCAST_ADDR for the broadcast form, else TX_DEST (R210). -/
def sendDest (broadcast : Bool) (s : State) : Byte :=
  if broadcast then bcastAddr else s.txDest

/-! ## The job being served -/

/-- The record the transmit engine reads of the current job (R221). -/
structure Job where
  dest : Byte
  orig : Byte
  cmd : Byte
  len : Byte
  deriving DecidableEq, Repr

/-- The current job J: `hjob` while the lock is TXH, `pjob` with CMD_PONG while it is TXP (R221). -/
def currentJob (s : State) : Option Job :=
  match s.lock with
  | .txh => some ⟨s.hjob.dest, s.hjob.orig, s.hjob.cmd, s.hjob.len⟩
  | .txp => some ⟨s.pjob.dest, s.pjob.orig, cmdPong, s.pjob.len⟩
  | .none => none
  | .rx => none

/-- How many bytes of `hjob.val` a typed job has. -/
def typedWidth : JobKind → Nat
  | .i8 => 1
  | .i16 => 2
  | .i32 => 4
  | .raw => 0
  | .str => 0

/-- Payload byte `i` of the host job (R221): TXBUF for RAW and STR, `hjob.val` little-endian for the others. -/
def hostPayloadByte (s : State) (i : Nat) : Option Byte :=
  match s.hjob.kind with
  | .raw => some (txbuf s i)
  | .str => some (txbuf s i)
  | .i8 => if i < typedWidth .i8 then some (valByte s.hjob.val i) else none
  | .i16 => if i < typedWidth .i16 then some (valByte s.hjob.val i) else none
  | .i32 => if i < typedWidth .i32 then some (valByte s.hjob.val i) else none

/-- PB(J, i), payload byte `i` of the current job, defined for i < J.len (R221). -/
def payloadByte (s : State) (i : Nat) : Option Byte :=
  match s.lock with
  | .txh => if i < s.hjob.len.toNat then hostPayloadByte s i else none
  | .txp => if i < s.pjob.len.toNat then some (rxbuf s i) else none
  | .none => none
  | .rx => none

end Sys2Proof.Machine
end

