-- ==== Sys2Proof/Machine/Lifecycle.lean ====
section
/-! DEFINITION. Command acceptance and the endpoint lifecycle (43_lifecycle.md): OPEN, CLOSE and the CTL
step that completes a CLOSE. -/

namespace Sys2Proof.Machine

/-- The COMMAND write around a command's own effect (R261): dropped while CMD_BUSY = 1, else `done` is cleared
and the command runs. -/
def acceptCommand (body : State → State) (s : State) : State :=
  if cmdBusy s then s else body { s with doneFlag := false }

/-- The state a successful OPEN leaves (R262): the staged configuration latched, parser, engine, lock and jobs
idle, direction control deasserted. `rx.win` and `rx.h_*` keep their bytes. -/
def openEndpoint (s : State) : State :=
  { s with
    cfg := ⟨s.station, s.sohN, ctrlDeEn s⟩
    rx := { s.rx with
      phase := .seek, wcnt := 0#3, idle := 0#32, acc := 0x00#8, cursor := 0x00#8, trl := 0x00#8 }
    tx := { phase := .idle, idx := 0x00#8, acc := 0x00#8 }
    lock := .none
    hjob := { s.hjob with valid := false }
    pjob := { s.pjob with valid := false }
    de := false
    life := .running }

/-- Open() (R262), its checks in the order of R322. -/
def openBody (s : State) : State :=
  if s.life = .running then raiseResult errState s
  else if s.sohN = 0x00#8 then raiseResult errParam s
  else if s.inp.xportOk = false then raiseResult errResource s
  else if ctrlDeEn s = true ∧ s.inp.deOk = false then raiseResult errResource s
  else raiseResult resOk (openEndpoint s)

/-- The phases in which CLOSE abandons the frame being received (R263). -/
def RxPhase.abandonedByClose : RxPhase → Bool
  | .waitLock | .collect | .chkEtx | .readChk | .chkEot => true
  | .seek | .pongWait | .deliver => false

/-- The partial frame is abandoned (R263): the lock is released if the receiver holds it, and the parser seeks. -/
def abandonFrame (s : State) : State :=
  { s with
    lock := if s.lock = .rx then .none else s.lock
    rx := { s.rx with phase := .seek, wcnt := 0#3, idle := 0#32 } }

/-- The endpoint begins to close: `life` <- L_CLOSING, so CMD_BUSY rises (R263). -/
def beginClose (s : State) : State :=
  { s with life := .closing }

/-- Close() (R263). -/
def closeBody (s : State) : State :=
  if s.life ≠ .running then raiseResult errState s
  else if s.rx.phase.abandonedByClose then beginClose (abandonFrame s)
  else beginClose s

/-- CTL.CLOSE_DONE is enabled (R264). -/
def closeDoneEnabled (s : State) : Bool :=
  s.life == .closing && s.rx.phase == .seek && s.lock == .none && !s.pjob.valid && s.tx.phase == .idle

/-- CTL.CLOSE_DONE (R264); no effect when it is not enabled. -/
def closeDone (s : State) : State :=
  if closeDoneEnabled s then raiseResult resOk { s with life := .stopped, de := false } else s

/-- OPEN, COMMAND 0x01 (R261, R262). -/
def execOpen (s : State) : Host.Outcome State Fault Refusal :=
  .next (acceptCommand openBody s)

/-- CLOSE, COMMAND 0x02 (R261, R263). -/
def execClose (s : State) : Host.Outcome State Fault Refusal :=
  .next (acceptCommand closeBody s)

end Sys2Proof.Machine
end

