-- ==== Sys2Proof/Machine/Send.lean ====
section
/-! DEFINITION. The ten send commands (42_transmit.md section 1) over the shared acceptance SendCommon. -/

namespace Sys2Proof.Machine

/-- The host job of an accepted send, every transmit parameter sampled now (R210, R67). -/
def acceptSend (kind : JobKind) (broadcast : Bool) (len : Byte) (s : State) : State :=
  { s with hjob := ⟨true, sendDest broadcast s, s.cfg.station, s.txCmd, len, kind, s.txVal⟩ }

/-- SendCommon(kind, B, len_or_error) (R210): the checks in the order of R322, then the host job. A length `none`
is TOO_LONG. -/
def sendCommon (kind : JobKind) (broadcast : Bool) (len : Option Byte) (s : State) : State :=
  if s.life ≠ .running then raiseResult errNotOpen s
  else if s.txCmd = cmdCatchall then raiseResult errCmd s
  else match len with
    | none => raiseResult errLen s
    | some l => acceptSend kind broadcast l s

/-- SEND_RAW's effect (R211). -/
def sendRawBody (s : State) : State := sendCommon .raw false (rawLen s) s
/-- SEND_STR's effect (R212). -/
def sendStrBody (s : State) : State := sendCommon .str false (strLen s) s
/-- SEND_I8's effect (R213). -/
def sendI8Body (s : State) : State := sendCommon .i8 false (some 1#8) s
/-- SEND_I16's effect (R214). -/
def sendI16Body (s : State) : State := sendCommon .i16 false (some 2#8) s
/-- SEND_I32's effect (R215). -/
def sendI32Body (s : State) : State := sendCommon .i32 false (some 4#8) s
/-- BSEND_RAW's effect (R216). -/
def bsendRawBody (s : State) : State := sendCommon .raw true (rawLen s) s
/-- BSEND_STR's effect (R217). -/
def bsendStrBody (s : State) : State := sendCommon .str true (strLen s) s
/-- BSEND_I8's effect (R218). -/
def bsendI8Body (s : State) : State := sendCommon .i8 true (some 1#8) s
/-- BSEND_I16's effect (R219). -/
def bsendI16Body (s : State) : State := sendCommon .i16 true (some 2#8) s
/-- BSEND_I32's effect (R220). -/
def bsendI32Body (s : State) : State := sendCommon .i32 true (some 4#8) s

/-- SEND_RAW, COMMAND 0x03 (R261, R211). -/
def execSendRaw (s : State) : Host.Outcome State Fault Refusal := .next (acceptCommand sendRawBody s)
/-- SEND_STR, COMMAND 0x04 (R261, R212). -/
def execSendStr (s : State) : Host.Outcome State Fault Refusal := .next (acceptCommand sendStrBody s)
/-- SEND_I8, COMMAND 0x05 (R261, R213). -/
def execSendI8 (s : State) : Host.Outcome State Fault Refusal := .next (acceptCommand sendI8Body s)
/-- SEND_I16, COMMAND 0x06 (R261, R214). -/
def execSendI16 (s : State) : Host.Outcome State Fault Refusal := .next (acceptCommand sendI16Body s)
/-- SEND_I32, COMMAND 0x07 (R261, R215). -/
def execSendI32 (s : State) : Host.Outcome State Fault Refusal := .next (acceptCommand sendI32Body s)
/-- BSEND_RAW, COMMAND 0x13 (R261, R216). -/
def execBsendRaw (s : State) : Host.Outcome State Fault Refusal := .next (acceptCommand bsendRawBody s)
/-- BSEND_STR, COMMAND 0x14 (R261, R217). -/
def execBsendStr (s : State) : Host.Outcome State Fault Refusal := .next (acceptCommand bsendStrBody s)
/-- BSEND_I8, COMMAND 0x15 (R261, R218). -/
def execBsendI8 (s : State) : Host.Outcome State Fault Refusal := .next (acceptCommand bsendI8Body s)
/-- BSEND_I16, COMMAND 0x16 (R261, R219). -/
def execBsendI16 (s : State) : Host.Outcome State Fault Refusal := .next (acceptCommand bsendI16Body s)
/-- BSEND_I32, COMMAND 0x17 (R261, R220). -/
def execBsendI32 (s : State) : Host.Outcome State Fault Refusal := .next (acceptCommand bsendI32Body s)

end Sys2Proof.Machine
end

