-- ==== Sys2Proof/Machine/Bus.lean ====
section
/-! DEFINITION. The host bus: the COMMAND, STATUS and FRAME_ACK writes and the generic write and read
(R179, R261, R265 to R267). -/

namespace Sys2Proof.Machine

/-- The effect of a COMMAND byte once the write is accepted: the case split of R261. -/
def commandBody (v : Byte) : State → State :=
  match decodeCommand v with
  | .ok .cmdOpen => openBody
  | .ok .cmdClose => closeBody
  | .ok .sendRaw => sendRawBody
  | .ok .sendStr => sendStrBody
  | .ok .sendI8 => sendI8Body
  | .ok .sendI16 => sendI16Body
  | .ok .sendI32 => sendI32Body
  | .ok .bsendRaw => bsendRawBody
  | .ok .bsendStr => bsendStrBody
  | .ok .bsendI8 => bsendI8Body
  | .ok .bsendI16 => bsendI16Body
  | .ok .bsendI32 => bsendI32Body
  | _ => raiseResult errIllegal

/-- COMMAND write (R261). -/
def commandWrite (v : Byte) (s : State) : State :=
  acceptCommand (commandBody v) s

/-- STATUS write: bit 3 = 1 clears `done`, every other bit is ignored (R265). -/
def statusWrite (v : Byte) (s : State) : State :=
  if v.getLsbD 3 then { s with doneFlag := false } else s

/-- FRAME_ACK write: ends the delivery of a pending frame, else no effect (R179). -/
def frameAckWrite (s : State) : State :=
  if framePend s then { s with rx := { s.rx with wcnt := 0#3, phase := .seek } } else s

/-- A write that is dropped while CMD_BUSY = 1 (R68). -/
def unlessBusy (f : State → State) (s : State) : State :=
  if cmdBusy s then s else f s

/-- MemWrite(a, 1, v) (R266): one byte to what the address names; read-only and reserved targets drop it
(R62, R69). -/
def hostWrite (a : Addr) (v : Byte) (s : State) : State :=
  match target a with
  | .ctrl => { s with ctrl := ctrlDefined v }
  | .station => { s with station := v }
  | .sohN => { s with sohN := v }
  | .command => commandWrite v s
  | .status => statusWrite v s
  | .txDest => unlessBusy (fun s => { s with txDest := v }) s
  | .txCmd => unlessBusy (fun s => { s with txCmd := v }) s
  | .txLen0 => unlessBusy (fun s => { s with txLen := setLenByte s.txLen 0 v }) s
  | .txLen1 => unlessBusy (fun s => { s with txLen := setLenByte s.txLen 1 v }) s
  | .txVal0 => unlessBusy (fun s => { s with txVal := setValByte s.txVal 0 v }) s
  | .txVal1 => unlessBusy (fun s => { s with txVal := setValByte s.txVal 1 v }) s
  | .txVal2 => unlessBusy (fun s => { s with txVal := setValByte s.txVal 2 v }) s
  | .txVal3 => unlessBusy (fun s => { s with txVal := setValByte s.txVal 3 v }) s
  | .frameAck => frameAckWrite s
  | .txbuf i => unlessBusy (storeTxbuf i.toNat v) s
  | .result | .rxPhase | .txPhase | .rxDest | .rxSrc | .rxCmd | .rxLen => s
  | .cfgStation | .cfgSohN | .cfgFlags | .rxAcc | .rxTrl | .rxWcnt | .deLevel => s
  | .rxbuf _ => s
  | .reserved => s

/-- MemRead(a, 1) (R267). -/
def hostRead (a : Addr) (s : State) : Byte :=
  match target a with
  | .ctrl => ctrlDefined s.ctrl
  | .station => s.station
  | .sohN => s.sohN
  | .command => 0x00#8
  | .status => statusByte s
  | .result => s.result
  | .rxPhase => rxPhaseByte s
  | .txPhase => txPhaseByte s
  | .txDest => s.txDest
  | .txCmd => s.txCmd
  | .txLen0 => lenByte s.txLen 0
  | .txLen1 => lenByte s.txLen 1
  | .txVal0 => valByte s.txVal 0
  | .txVal1 => valByte s.txVal 1
  | .txVal2 => valByte s.txVal 2
  | .txVal3 => valByte s.txVal 3
  | .rxDest => s.rx.hDest
  | .rxSrc => s.rx.hSrc
  | .rxCmd => s.rx.hCmd
  | .rxLen => s.rx.hLen
  | .frameAck => 0x00#8
  | .cfgStation => s.cfg.station
  | .cfgSohN => s.cfg.sohN
  | .cfgFlags => 0#7 ++ BitVec.ofBool s.cfg.deEn
  | .rxAcc => s.rx.acc
  | .rxTrl => s.rx.trl
  | .rxWcnt => 0#5 ++ s.rx.wcnt
  | .deLevel => 0#7 ++ BitVec.ofBool s.de
  | .txbuf i => txbuf s i.toNat
  | .rxbuf i => rxbuf s i.toNat
  | .reserved => 0x00#8

/-- WR (R266). -/
def execWr (a : Addr) (d : Byte) (s : State) : Host.Outcome State Fault Refusal :=
  .next (hostWrite a d s)

/-- RD (R267): the value read is observed; no host read has another effect (R70). -/
def execRd (a : Addr) (s : State) : Host.Outcome State Fault Refusal :=
  .next (observe (.read (hostRead a s)) s)

/-- WR_COMMAND (R261). -/
def execWrCommand (c : Byte) (s : State) : Host.Outcome State Fault Refusal :=
  .next (commandWrite c s)

/-- WR_STATUS__clear_DONE (R265). -/
def execWrStatus (d : Byte) (s : State) : Host.Outcome State Fault Refusal :=
  .next (statusWrite d s)

/-- WR_FRAME_ACK (R179): the written byte is ignored. -/
def execWrFrameAck (_d : Byte) (s : State) : Host.Outcome State Fault Refusal :=
  .next (frameAckWrite s)

end Sys2Proof.Machine
end

