-- ==== Sys2Proof/Machine/FrameCommand.lean ====
section
/-! DEFINITION. What a validated frame's command code does: Dispatch(), the second half of the RX.CHK_EOT step
(R173), for each reserved code of R98 and for a user command. The first half is in Machine/Receive.lean. -/

namespace Sys2Proof.Machine

/-- The frame is handed to the host: `rx.phase` <- RX_DELIVER, so FRAME_PEND rises (R173, R178). -/
def deliverFrame (s : State) : State :=
  { s with rx := { s.rx with phase := .deliver } }

/-- The automatic reply is queued and the parser waits for it (R173, R176). -/
def queuePong (s : State) : State :=
  { s with
    pjob := ⟨true, s.rx.hSrc, s.cfg.station, s.rx.hLen⟩
    rx := { s.rx with phase := .pongWait } }

/-- PING: the reply comes before the delivery (R139, R173). -/
def execPing (s : State) : Host.Outcome State Fault Refusal := .next (queuePong s)

/-- PONG: no behaviour of its own on receipt, delivered (R140). -/
def execPong (s : State) : Host.Outcome State Fault Refusal := .next (deliverFrame s)

/-- QSTAT: no behaviour, delivered (R141). -/
def execQstat (s : State) : Host.Outcome State Fault Refusal := .next (deliverFrame s)

/-- RSTAT: no behaviour, delivered (R141). -/
def execRstat (s : State) : Host.Outcome State Fault Refusal := .next (deliverFrame s)

/-- The code 0x09: no behaviour as a command, delivered (R142). -/
def execRelay (s : State) : Host.Outcome State Fault Refusal := .next (deliverFrame s)

/-- The code 0xFF: never sent by ICSC-FE, but a received frame with it is delivered (R143). -/
def execCatchall (s : State) : Host.Outcome State Fault Refusal := .next (deliverFrame s)

/-- Every other code is a user command: delivered (R98, R173). -/
def dispatchUser (s : State) : Host.Outcome State Fault Refusal := .next (deliverFrame s)

end Sys2Proof.Machine
end

