-- ==== Sys2Proof/Machine/Dispatch.lean ====
section
/-! DEFINITION. The meaning of every instruction, one arm a constructor. -/

namespace Sys2Proof.Machine

def exec (i : Instr) (s : State) : Host.Outcome State Fault Refusal :=
  match i with
  -- COMMAND bytes
  | .cmdOpen => Sys2Proof.Machine.execOpen s
  | .cmdClose => Sys2Proof.Machine.execClose s
  | .sendRaw => Sys2Proof.Machine.execSendRaw s
  | .sendStr => Sys2Proof.Machine.execSendStr s
  | .sendI8 => Sys2Proof.Machine.execSendI8 s
  | .sendI16 => Sys2Proof.Machine.execSendI16 s
  | .sendI32 => Sys2Proof.Machine.execSendI32 s
  | .bsendRaw => Sys2Proof.Machine.execBsendRaw s
  | .bsendStr => Sys2Proof.Machine.execBsendStr s
  | .bsendI8 => Sys2Proof.Machine.execBsendI8 s
  | .bsendI16 => Sys2Proof.Machine.execBsendI16 s
  | .bsendI32 => Sys2Proof.Machine.execBsendI32 s
  -- host bus words
  | .wr a d => Sys2Proof.Machine.execWr a d s
  | .rd a => Sys2Proof.Machine.execRd a s
  | .wrCommand c => Sys2Proof.Machine.execWrCommand c s
  | .wrStatus d => Sys2Proof.Machine.execWrStatus d s
  | .wrFrameAck d => Sys2Proof.Machine.execWrFrameAck d s
  -- command codes of received frames
  | .ping => Sys2Proof.Machine.execPing s
  | .pong => Sys2Proof.Machine.execPong s
  | .qstat => Sys2Proof.Machine.execQstat s
  | .rstat => Sys2Proof.Machine.execRstat s
  | .relay => Sys2Proof.Machine.execRelay s
  | .catchall => Sys2Proof.Machine.execCatchall s

end Sys2Proof.Machine
end

