-- ==== Sys2Proof/Machine/Receive.lean ====
section
/-! DEFINITION. The steps of the receive framing state machine RXF (41_receive_fsm.md) but for Dispatch, whose
per-command half is in Machine/FrameCommand.lean. Each byte step is applied after `RxTake()`. -/

namespace Sys2Proof.Machine

/-- HeaderMatch(win, wcnt, b) (R165). -/
def headerMatch (k : Config.Params) (win : Window) (wcnt : BitVec 3) (b : Byte) : Bool :=
  wcnt == 5#3 && win.w0 == k.soh && b == k.stx && win.w1 != win.w2

/-- Accept(dest), the address filter (R167). -/
def acceptDest (s : State) (dest : Byte) : Bool :=
  dest == s.cfg.station || dest == bcastAddr

/-- The window with `b` shifted in and the oldest entry dropped (R164). -/
def shiftWindow (w : Window) (b : Byte) : Window :=
  ⟨w.w1, w.w2, w.w3, w.w4, b⟩

/-- min(rx.wcnt + 1, 5) (R164). -/
def countUp (n : BitVec 3) : BitVec 3 :=
  BitVec.ofNat 3 (min (n.toNat + 1) 5)

/-- RX.SHIFT (R164). -/
def rxShift (b : Byte) (s : State) : State :=
  { s with rx := { s.rx with win := shiftWindow s.rx.win b, wcnt := countUp s.rx.wcnt } }

/-- RX.HDR (R166): the header fields are latched; the STX byte is not shifted in. -/
def rxHeader (s : State) : State :=
  { s with rx := { s.rx with
      hDest := s.rx.win.w1, hSrc := s.rx.win.w2, hCmd := s.rx.win.w3, hLen := s.rx.win.w4
      wcnt := 0#3, phase := .waitLock } }

/-- A byte taken in RX_SEEK: RX.DISCARD while not running (R163), else RX.HDR (R166) or RX.SHIFT (R164). -/
def rxSeek (b : Byte) (s : State) : State :=
  if s.life ≠ .running then s
  else if headerMatch s.par s.rx.win s.rx.wcnt b then rxHeader s
  else rxShift b s

/-- The channel is free for the receiver: GrantRX (R292). -/
def grantRx (s : State) : Bool :=
  s.rx.phase == .waitLock && s.lock == .none

/-- RX.GRANT (R168): take the lock and start the frame, or drop the header, the lock staying free. -/
def rxGrant (s : State) : State :=
  if acceptDest s s.rx.hDest then
    { s with
      lock := .rx
      rx := { s.rx with
        acc := s.rx.hDest + s.rx.hSrc + s.rx.hCmd + s.rx.hLen
        cursor := 0x00#8, idle := 0#32
        phase := if s.rx.hLen = 0x00#8 then .chkEtx else .collect } }
  else { s with rx := { s.rx with phase := .seek } }

/-- RX.GRANT when it is enabled, else no effect: the parser waits in RX_WAIT_LOCK (R168, R292). -/
def rxWaitLock (s : State) : State :=
  if grantRx s then rxGrant s else s

/-- RX.COLLECT (R169). A cursor at 255 would store past RXBUF's end; R169 says that is never written. -/
def rxCollect (b : Byte) (s : State) : Host.Outcome State Fault Refusal :=
  if s.rx.cursor = 0xFF#8 then .fault .rxbufIndex
  else .next (storeRxbuf s.rx.cursor.toNat b
    { s with rx := { s.rx with
        acc := s.rx.acc + b, cursor := s.rx.cursor + 1#8, idle := 0#32
        phase := if s.rx.cursor + 1#8 = s.rx.hLen then .chkEtx else .collect } })

/-- The parser returns to RX_SEEK with no valid window entry (R170, R172, R174). -/
def rxRestart (s : State) : State :=
  { s with rx := { s.rx with wcnt := 0#3, phase := .seek } }

/-- RX.CHK_ETX (R170): on a wrong byte the lock is released and the frame discarded. -/
def rxCheckEtx (b : Byte) (s : State) : State :=
  if b = s.par.etx then { s with rx := { s.rx with idle := 0#32, phase := .readChk } }
  else rxRestart { s with lock := .none, rx := { s.rx with idle := 0#32 } }

/-- RX.READ_CHK (R171). -/
def rxReadChecksum (b : Byte) (s : State) : State :=
  { s with rx := { s.rx with trl := b, idle := 0#32, phase := .chkEot } }

/-- The trailer is valid: the byte is EOT_CODE and the received checksum equals the accumulator (R172). -/
def trailerValid (b : Byte) (s : State) : Bool :=
  b == s.par.eot && s.rx.trl == s.rx.acc

/-- The part of RX.CHK_EOT that happens in every case (R172): the lock is released. -/
def rxRelease (s : State) : State :=
  { s with lock := .none, rx := { s.rx with idle := 0#32 } }

end Sys2Proof.Machine
end

