-- ==== Sys2Proof/Machine/Timer.lean ====
section
/-! DEFINITION. The idle timer TMR: the idle counter (R333) and RX.IDLE_ABORT (R180). -/

namespace Sys2Proof.Machine

/-- min(rx.idle + 1, 2^32 - 1) (R333). -/
def idleUp (n : BitVec 32) : BitVec 32 :=
  BitVec.ofNat 32 (min (n.toNat + 1) 4294967295)

/-- One clock cycle in which no received byte is taken (R333). -/
def idleTick (s : State) : State :=
  if s.rx.phase.holdsLock then { s with rx := { s.rx with idle := idleUp s.rx.idle } } else s

/-- RX.IDLE_ABORT is enabled (R180). -/
def idleAbortEnabled (s : State) : Bool :=
  s.par.tRxIdle != 0#32 && s.rx.phase.holdsLock && decide (s.par.tRxIdle ≤ s.rx.idle)

/-- RX.IDLE_ABORT (R180); no effect when it is not enabled. -/
def idleAbort (s : State) : State :=
  if idleAbortEnabled s then rxRestart { s with lock := .none, rx := { s.rx with idle := 0#32 } } else s

end Sys2Proof.Machine
end

