-- ==== Sys2Proof/Machine/Transmit.lean ====
section
/-! DEFINITION. The transmit engine TXE (42_transmit.md section 2) with the transmit grants (44_arbitration.md
section 2). -/

namespace Sys2Proof.Machine

/-- GrantTXP (R293). -/
def grantTxp (s : State) : Bool :=
  s.lock == .none && s.tx.phase == .idle && s.pjob.valid && s.rx.phase != .waitLock

/-- GrantTXH (R294). -/
def grantTxh (s : State) : Bool :=
  s.lock == .none && s.tx.phase == .idle && s.hjob.valid && !s.pjob.valid && s.rx.phase != .waitLock

/-- The engine takes the lock as `owner` and starts a frame (R222). -/
def txStart (owner : LockOwner) (s : State) : State :=
  { s with lock := owner, de := s.cfg.deEn, tx := { phase := .soh, idx := 0x00#8, acc := 0x00#8 } }

/-- TX.GRANT: the PONG first (R222, R295); no effect when neither grant is enabled. -/
def txGrant (s : State) : State :=
  if grantTxp s then txStart .txp s
  else if grantTxh s then txStart .txh s
  else s

/-- Phase and accumulator of the engine change. -/
def txGo (phase : TxPhase) (acc : Byte) (s : State) : State :=
  { s with tx := { s.tx with phase := phase, acc := acc } }

/-- T_SOH: one start sentinel (R223). -/
def txSohStep (s : State) : State :=
  txPut s.par.soh
    { s with tx := { s.tx with
        idx := if s.tx.idx + 1#8 = s.cfg.sohN then 0x00#8 else s.tx.idx + 1#8
        phase := if s.tx.idx + 1#8 = s.cfg.sohN then .dest else .soh } }

/-- T_DEST (R224). -/
def txDestStep (j : Job) (s : State) : State :=
  txPut j.dest (txGo .orig (s.tx.acc + j.dest) s)

/-- T_ORIG (R225). -/
def txOrigStep (j : Job) (s : State) : State :=
  txPut j.orig (txGo .cmd (s.tx.acc + j.orig) s)

/-- T_CMD (R226). -/
def txCmdStep (j : Job) (s : State) : State :=
  txPut j.cmd (txGo .len (s.tx.acc + j.cmd) s)

/-- T_LEN (R227). -/
def txLenStep (j : Job) (s : State) : State :=
  txPut j.len (txGo .stx (s.tx.acc + j.len) s)

/-- T_STX (R228). -/
def txStxStep (j : Job) (s : State) : State :=
  txPut s.par.stx
    { s with tx := { s.tx with idx := 0x00#8, phase := if j.len = 0x00#8 then .etx else .payload } }

/-- T_PAYLOAD with the payload byte `b` (R229). -/
def txPayloadSend (j : Job) (b : Byte) (s : State) : State :=
  txPut b
    { s with tx := { s.tx with
        acc := s.tx.acc + b, idx := s.tx.idx + 1#8
        phase := if s.tx.idx + 1#8 = j.len then .etx else .payload } }

/-- T_ETX (R230). -/
def txEtxStep (s : State) : State := txPut s.par.etx (txGo .chk s.tx.acc s)

/-- T_CHK (R231). -/
def txChkStep (s : State) : State := txPut s.tx.acc (txGo .eot s.tx.acc s)

/-- T_EOT (R232). -/
def txEotStep (s : State) : State := txPut s.par.eot (txGo .flush s.tx.acc s)

/-- The host job is complete: RESULT = OK (R233). -/
def finishHostJob (s : State) : State :=
  raiseResult resOk { s with lock := .none, hjob := { s.hjob with valid := false } }

/-- The PONG job is complete: the PING is now delivered (R233). -/
def finishPongJob (s : State) : State :=
  { s with lock := .none, pjob := { s.pjob with valid := false }, rx := { s.rx with phase := .deliver } }

/-- T_FLUSH completion (R233). -/
def txFlushDone (s : State) : State :=
  if s.lock = .txh then finishHostJob { s with de := false, tx := { s.tx with phase := .idle } }
  else finishPongJob { s with de := false, tx := { s.tx with phase := .idle } }

/-- A step that needs the current job J (R221). -/
def withJob (f : Job → State) (s : State) : Host.Outcome State Fault Refusal :=
  match currentJob s with
  | some j => .next (f j)
  | none => .fault .noCurrentJob

/-- T_PAYLOAD (R229). -/
def txPayloadStep (s : State) : Host.Outcome State Fault Refusal :=
  match currentJob s with
  | none => .fault .noCurrentJob
  | some j =>
    match payloadByte s s.tx.idx.toNat with
    | none => .fault .payloadIndex
    | some b => .next (txPayloadSend j b s)

/-- The byte step of the engine's phase, taken when the transport takes the byte (R223 to R232). -/
def txByteStep (s : State) : Host.Outcome State Fault Refusal :=
  match s.tx.phase with
  | .idle => .next s
  | .soh => .next (txSohStep s)
  | .dest => withJob (fun j => txDestStep j s) s
  | .orig => withJob (fun j => txOrigStep j s) s
  | .cmd => withJob (fun j => txCmdStep j s) s
  | .len => withJob (fun j => txLenStep j s) s
  | .stx => withJob (fun j => txStxStep j s) s
  | .payload => txPayloadStep s
  | .etx => .next (txEtxStep s)
  | .chk => .next (txChkStep s)
  | .eot => .next (txEotStep s)
  | .flush => .next s

/-- A turn of TXE: TX.GRANT in T_IDLE, the completion in T_FLUSH when `flush_done = 1`, else one byte when
`tx_ready = 1`. With no step enabled the engine waits. -/
def txeTurn (s : State) : Host.Outcome State Fault Refusal :=
  if s.tx.phase = .idle then .next (txGrant s)
  else if s.tx.phase = .flush then .next (if s.inp.flushDone then txFlushDone s else s)
  else if s.inp.txReady then txByteStep s
  else .next s

/-- The byte TxPut sends in the current phase, if there is one (R234). -/
def txByte (s : State) : Option Byte :=
  match s.tx.phase with
  | .idle => none
  | .soh => some s.par.soh
  | .dest => (currentJob s).map (·.dest)
  | .orig => (currentJob s).map (·.orig)
  | .cmd => (currentJob s).map (·.cmd)
  | .len => (currentJob s).map (·.len)
  | .stx => some s.par.stx
  | .payload => payloadByte s s.tx.idx.toNat
  | .etx => some s.par.etx
  | .chk => some s.tx.acc
  | .eot => some s.par.eot
  | .flush => none

end Sys2Proof.Machine
end

