-- ==== Sys2Proof/Machine/Turns.lean ====
section
/-! DEFINITION. One turn of each agent (R11), and how an opcode-table word is placed so that the next step
runs it. -/

namespace Sys2Proof.Machine

/-- A host bus cycle (R80): the word it stands for is decoded and run; a cycle with both strobes 1 or both 0
performs no access. -/
def hostTurn (c : HostCycle) (s : State) : Host.Outcome State Fault Refusal :=
  match decodeBus (busWord c) with
  | .ok i => exec i s
  | .error _ => .next s

/-- Dispatch(), the second half of RX.CHK_EOT (R173): the frame's CMD byte is decoded and run; a code without a
row is a user command. -/
def dispatch (s : State) : Host.Outcome State Fault Refusal :=
  match decodeFrameCmd s.rx.hCmd with
  | .ok i => exec i s
  | .error _ => dispatchUser s

/-- RX.CHK_EOT (R172), after `RxTake()`. -/
def rxCheckEot (b : Byte) (s : State) : Host.Outcome State Fault Refusal :=
  if trailerValid b s then dispatch (rxRelease s) else .next (rxRestart (rxRelease s))

/-- The byte step of the receiver's phase, after `RxTake()` (R163 to R172). -/
def rxByteStep (b : Byte) (s : State) : Host.Outcome State Fault Refusal :=
  match s.rx.phase with
  | .seek => .next (rxSeek b s)
  | .collect => rxCollect b s
  | .chkEtx => .next (rxCheckEtx b s)
  | .readChk => .next (rxReadChecksum b s)
  | .chkEot => rxCheckEot b s
  | .waitLock => .next s
  | .pongWait => .next s
  | .deliver => .next s

/-- A turn of RXF: RX.GRANT in RX_WAIT_LOCK; in a phase with `rx_ready = 1` the offered byte is taken; with no
step enabled the receiver waits, and offered bytes wait in the transport (R161, R184). -/
def rxfTurn (s : State) : Host.Outcome State Fault Refusal :=
  if s.rx.phase.takesBytes then
    match s.rxIn with
    | [] => .next s
    | b :: _ => rxByteStep b (rxTake s)
  else .next (rxWaitLock s)

/-- A step of the environment: an input changes (R51). -/
def envTurn (e : EnvEvent) (s : State) : State :=
  match e with
  | .offer b => { s with rxIn := s.rxIn ++ [b] }
  | .xportOk l => { s with inp := { s.inp with xportOk := l } }
  | .deOk l => { s with inp := { s.inp with deOk := l } }
  | .txReady l => { s with inp := { s.inp with txReady := l } }
  | .flushDone l => { s with inp := { s.inp with flushDone := l } }

/-- One turn (R11, R12). In a cycle with `rst = 1` no other step is taken and the host's access has no effect
(R360). -/
def takeTurn (t : Turn) (s : State) : Host.Outcome State Fault Refusal :=
  match t with
  | .host c => hostTurn c s
  | .ctl => .next (closeDone s)
  | .rxf => rxfTurn s
  | .txe => txeTurn s
  | .tick => .next (idleTick s)
  | .idleAbort => .next (idleAbort s)
  | .env e => .next (envTurn e s)
  | .rst _ => .next (hardReset s)

/-- The next turn of `sched` is taken and what the outputs show is observed. With no turn to come the machine
stays as it is, log 2. -/
def runTurn (s : State) : Host.Outcome State Fault Refusal :=
  match s.sched with
  | [] => .next s
  | t :: rest => mapNext (observeOutputs s) (takeTurn t { s with sched := rest })

/-- One step: a turn, for parameters the spec covers (D2). -/
def guardedTurn (s : State) : Host.Outcome State Fault Refusal :=
  if s.par.Distinct then runTurn s else .fault .sentinelsNotDistinct

/-! ## Placing an opcode-table word -/

/-- The bus cycle of a 22-bit word (R100). -/
def cycleOfWord (w : BusWord) : HostCycle :=
  ⟨busW w, busR w, busA w, busD w⟩

/-- The next turn is this bus cycle. -/
def placeCycle (c : HostCycle) (s : State) : State :=
  { s with sched := .host c :: s.sched }

/-- The next turn is RX.CHK_EOT of a frame with this CMD byte whose trailer is valid: the endpoint runs, the
receiver holds the lock, the whole payload is collected and EOT is offered. DESIGN CHOICE, log 14. -/
def placeFrameCmd (b : Byte) (s : State) : State :=
  { s with
    life := .running
    lock := .rx
    rx := { s.rx with phase := .chkEot, wcnt := 0#3, hCmd := b, cursor := s.rx.hLen, trl := s.rx.acc }
    rxIn := s.par.eot :: s.rxIn
    sched := .rxf :: s.sched }

/-- The table word `w` of `nbits` bits placed as the next thing the machine runs: a COMMAND byte as a host write
to COMMAND, a frame's CMD byte as that of a frame about to be dispatched, a bus word as a bus cycle. -/
def placeWord (nbits w : Nat) (s : State) : State :=
  if nbits ≤ 8 then
    match tableByteSpace (BitVec.ofNat 8 w) with
    | .command b => placeCycle ⟨true, false, addrCommand, b⟩ s
    | .frameCmd b => placeFrameCmd b s
    | .bus v => placeCycle (cycleOfWord v) s
  else placeCycle (cycleOfWord (BitVec.ofNat 22 w)) s

end Sys2Proof.Machine
end

