-- ==== Sys2Proof/Machine/Step.lean ====
section
/-! DEFINITION. One step of ICSC-FE, and where a table word is placed to be run next. -/

namespace Sys2Proof.Machine

/-- One atomic step (R12) of the agent whose turn is next. -/
def step (s : State) : Host.Outcome State Fault Refusal :=
  guardedTurn s

/-- `s` with the opcode-table word placed where the next step fetches it, log 14. -/
def State.withFetchWord (s : State) (nbits w : Nat) : State :=
  placeWord nbits w s

end Sys2Proof.Machine
end

