-- ==== Sys2Proof/Machine/Joined.lean ====
section
/-! DEFINITION. Two instances joined by one transport (R335): they share no state and see each other only as bytes
on the line, log 21. -/

namespace Sys2Proof.Machine

/-- Two instances, A's transmit stream being B's receive stream and the other way round (R335). -/
structure Joined where
  a : State
  b : State
  deriving DecidableEq, Repr

/-- Which instance takes the next step. -/
inductive Side
  | a
  | b
  deriving DecidableEq, Repr

/-- The bytes transmitted between an earlier state and a later one, oldest first. -/
def sentSince (s t : State) : List Byte :=
  (sentBytes t.obs).drop (sentBytes s.obs).length

/-- The transport offers more received bytes. -/
def offerBytes (bs : List Byte) (s : State) : State :=
  { s with rxIn := s.rxIn ++ bs }

/-- One instance takes a step, and the byte it transmits is offered to the other (R335). -/
def Joined.step (side : Side) (p : Joined) : Host.Outcome Joined Fault Refusal :=
  match side with
  | .a =>
    match Sys2Proof.Machine.step p.a with
    | .next t => .next ⟨t, offerBytes (sentSince p.a t) p.b⟩
    | .fault r => .fault r
    | .refused r => .refused r
  | .b =>
    match Sys2Proof.Machine.step p.b with
    | .next t => .next ⟨offerBytes (sentSince p.b t) p.a, t⟩
    | .fault r => .fault r
    | .refused r => .refused r

/-- The instances take steps in the order of a list (R12, R335). -/
def Joined.run : List Side → Joined → Host.Outcome Joined Fault Refusal
  | [], p => .next p
  | side :: rest, p =>
    match Joined.step side p with
    | .next q => Joined.run rest q
    | .fault r => .fault r
    | .refused r => .refused r

end Sys2Proof.Machine
end

