-- ==== Sys2Proof/Machine/Ports.lean ====
section
/-! DEFINITION. The output ports of R51 as functions of the state, of `rst` and of what the host drives in the
cycle (R80, R161, R234, R326, R360). -/

namespace Sys2Proof.Machine

/-- The output ports (R51). -/
structure Outputs where
  hRdata : Byte
  irq : Bool
  rxReady : Bool
  txValid : Bool
  txData : Byte
  flushReq : Bool
  de : Bool
  deriving DecidableEq, Repr

/-- `h_rdata` while `rst = 0`: the byte read in a cycle with `h_re = 1` and `h_we = 0`, else 0x00 (R80). -/
def hRdataLevel (c : HostCycle) (s : State) : Byte :=
  if c.re && !c.we then hostRead c.addr s else 0x00#8

/-- `tx_data` while `rst = 0`: the byte TxPut sends, 0x00 when `tx_valid = 0` (R234). -/
def txDataLevel (s : State) : Byte := (txByte s).getD 0x00#8

/-- The output ports in one cycle (R51); while `rst = 1` all are 0 (R360). -/
def outputs (rst : Bool) (c : HostCycle) (s : State) : Outputs :=
  if rst then ⟨0x00#8, false, false, false, 0x00#8, false, false⟩
  else
    { hRdata := hRdataLevel c s
      irq := irqLevel s
      rxReady := s.rx.phase.takesBytes
      txValid := s.tx.phase.sendsByte
      txData := txDataLevel s
      flushReq := flushReqLevel s
      de := s.de }

end Sys2Proof.Machine
end

