-- ==== Sys2Proof/Machine/Codec.lean ====
section
/-! DEFINITION. The frame codec as pure functions (40_frame_codec.md): the checksum, the encoder of a complete
frame and the typed payloads. The transmit and receive machines do not call these; statements compare the
machines with them (R132, R133, R235). -/

namespace Sys2Proof.Machine

/-- The sum of a list of bytes, modulo 256 (R9). -/
def sumBytes : List Byte → Byte
  | [] => 0x00#8
  | b :: bs => b + sumBytes bs

/-- Checksum(d, s, c, l, p): the 8-bit sum of DEST, SRC, CMD, LEN and every payload byte (R130). -/
def checksum (d s c l : Byte) (p : List Byte) : Byte :=
  d + s + c + l + sumBytes p

/-- EncodeFrame(N, d, s, c, p) (R134), for a payload of at most MAX_LEN bytes. -/
def encodeFrame (k : Config.Params) (n : Nat) (d s c : Byte) (p : List Byte) : List Byte :=
  List.replicate n k.soh ++ [d, s, c, BitVec.ofNat 8 p.length, k.stx] ++ p ++
    [k.etx, checksum d s c (BitVec.ofNat 8 p.length) p, k.eot]

/-- I8Bytes(v) (R144). -/
def i8Bytes (v : BitVec 32) : List Byte := [v.extractLsb' 0 8]

/-- I16Bytes(v), least significant byte first (R145). -/
def i16Bytes (v : BitVec 32) : List Byte := [v.extractLsb' 0 8, v.extractLsb' 8 8]

/-- I32Bytes(v), least significant byte first (R146). -/
def i32Bytes (v : BitVec 32) : List Byte :=
  [v.extractLsb' 0 8, v.extractLsb' 8 8, v.extractLsb' 16 8, v.extractLsb' 24 8]

/-- TXBUF[0 .. n-1] in index order (R66). -/
def txbufBytes (s : State) (n : Nat) : List Byte := (List.range n).map (txbuf s)

/-- RXBUF[0 .. n-1] in index order (R176, R178). -/
def rxbufBytes (s : State) (n : Nat) : List Byte := (List.range n).map (rxbuf s)

/-- The payload the host job stands for, as the payload encodings give it (R144 to R148). -/
def hostJobPayload (s : State) : List Byte :=
  match s.hjob.kind with
  | .raw => txbufBytes s s.hjob.len.toNat
  | .str => txbufBytes s s.hjob.len.toNat
  | .i8 => i8Bytes s.hjob.val
  | .i16 => i16Bytes s.hjob.val
  | .i32 => i32Bytes s.hjob.val

/-- The frame of the host job: EncodeFrame(cfg.soh_n, hjob.dest, hjob.orig, hjob.cmd, payload) (R235). -/
def hostJobFrame (s : State) : List Byte :=
  encodeFrame s.par s.cfg.sohN.toNat s.hjob.dest s.hjob.orig s.hjob.cmd (hostJobPayload s)

/-- The frame of the PONG job: its command is CMD_PONG and its payload RXBUF (R176, R235). -/
def pongJobFrame (s : State) : List Byte :=
  encodeFrame s.par s.cfg.sohN.toNat s.pjob.dest s.pjob.orig cmdPong (rxbufBytes s s.pjob.len.toNat)

end Sys2Proof.Machine
end

