-- ==== Sys2Proof/Safety.lean ====
section
/-! DEFINITION. What a safe run of ICSC-FE keeps: the invariants of R48, each under its own name, with the few
further facts that make them inductive, and the meaning of the two checksum accumulators (R132, R133). -/

namespace Sys2Proof.Safety

open Sys2Proof.Machine

/-- The lock is held by the transmit engine. -/
abbrev EngineHolds (s : State) : Prop := s.lock = .txh ∨ s.lock = .txp

/-- R48 item 1: in RX_COLLECT the cursor is below the declared length, and in the phases after it equal. -/
abbrev CursorBound (s : State) : Prop :=
  (s.rx.phase = .collect → s.rx.cursor.toNat < s.rx.hLen.toNat) ∧
  (s.rx.phase = .chkEtx ∨ s.rx.phase = .readChk ∨ s.rx.phase = .chkEot ∨ s.rx.phase = .pongWait ∨
    s.rx.phase = .deliver → s.rx.cursor = s.rx.hLen)

/-- R48 item 3: the receiver holds the lock exactly in its four frame phases. -/
abbrev ReceiverLock (s : State) : Prop := s.lock = .rx ↔ s.rx.phase.holdsLock = true

/-- R48 item 4: a PONG job is pending exactly in RX_PONG_WAIT. -/
abbrev PongPending (s : State) : Prop := s.pjob.valid = true ↔ s.rx.phase = .pongWait

/-- R48 item 5: the engine is busy exactly when it holds the lock. -/
abbrev EngineLock (s : State) : Prop := s.tx.phase ≠ .idle ↔ EngineHolds s

/-- R48 item 6: the job of the engine's lock is valid. -/
abbrev JobOfLock (s : State) : Prop :=
  (s.lock = .txh → s.hjob.valid = true) ∧ (s.lock = .txp → s.pjob.valid = true)

/-- R48 item 7: direction control is asserted only while the engine holds the lock, and only if enabled. -/
abbrev DirectionControl (s : State) : Prop := s.de = true → EngineHolds s ∧ s.cfg.deEn = true

/-- R48 item 8: an endpoint that is not running or closing is idle. -/
abbrev NotRunningIdle (s : State) : Prop :=
  s.life = .uninit ∨ s.life = .stopped →
    s.rx.phase = .seek ∧ s.tx.phase = .idle ∧ s.lock = .none ∧ s.hjob.valid = false ∧
    s.pjob.valid = false ∧ s.de = false

/-- R48 item 9: a host job exists only while running. -/
abbrev HostJobRuns (s : State) : Prop := s.hjob.valid = true → s.life = .running

/-- R48 item 10: at least one start sentinel. -/
abbrev SentinelCount (s : State) : Prop := s.cfg.sohN ≠ 0x00#8

/-- R48 item 11: no valid window entry outside RX_SEEK; and there are at most five (R42). -/
abbrev WindowCount (s : State) : Prop := (s.rx.phase ≠ .seek → s.rx.wcnt = 0#3) ∧ s.rx.wcnt.toNat ≤ 5

/-- The items of R48 that speak of one state (item 2 speaks of a step). -/
abbrev R48 (s : State) : Prop :=
  CursorBound s ∧ ReceiverLock s ∧ PongPending s ∧ EngineLock s ∧ JobOfLock s ∧ DirectionControl s ∧
  NotRunningIdle s ∧ HostJobRuns s ∧ SentinelCount s ∧ WindowCount s

/-- The length of a typed host job is its kind's, and no host job has the command 0xFF (R210, R213 to R215,
R143). -/
abbrev HostJobShape (s : State) : Prop :=
  s.hjob.valid = true →
    (s.hjob.kind = .i8 → s.hjob.len = 1#8) ∧ (s.hjob.kind = .i16 → s.hjob.len = 2#8) ∧
    (s.hjob.kind = .i32 → s.hjob.len = 4#8) ∧ s.hjob.cmd ≠ cmdCatchall

/-- `tx.idx` stays below the count it runs to: start sentinels in T_SOH (R223), payload bytes in T_PAYLOAD
(R229). -/
abbrev EngineIndex (s : State) : Prop :=
  (s.tx.phase = .soh → s.tx.idx.toNat < s.cfg.sohN.toNat) ∧
  (s.tx.phase = .payload → s.lock = .txh → s.tx.idx.toNat < s.hjob.len.toNat) ∧
  (s.tx.phase = .payload → s.lock = .txp → s.tx.idx.toNat < s.pjob.len.toNat)

/-- Direction control follows its enable from the grant to the flush (R236). -/
abbrev DirectionHeld (s : State) : Prop := s.tx.phase ≠ .idle → s.de = s.cfg.deEn

/-- DONE is 0 while a command is in progress (R261, R265). -/
abbrev DoneNotBusy (s : State) : Prop := cmdBusy s = true → s.doneFlag = false

/-- The reserved bits of CTRL hold 0 (R25, R62). -/
abbrev CtrlReserved (s : State) : Prop := ctrlDefined s.ctrl = s.ctrl

/-- RESULT holds one of the eight codes (R321). -/
abbrev ResultCode (s : State) : Prop := s.result.toNat ≤ 7

/-- A frame past the address filter is addressed to this station or broadcast (R167, R182). -/
abbrev FilteredDest (s : State) : Prop :=
  s.rx.phase.holdsLock = true ∨ s.rx.phase = .pongWait ∨ s.rx.phase = .deliver →
    acceptDest s s.rx.hDest = true

/-- The parameters are those the spec covers (D2). -/
abbrev ParamsCovered (s : State) : Prop := s.par.Distinct

/-- The buffers' list is in canonical form. -/
abbrev BufferForm (s : State) : Prop := Memory.wf s.buf = true

/-- A pending PONG job is the answer to the PING the parser holds: to its source, from this station, of its length
(R173, R176). -/
abbrev PongAnswersPing (s : State) : Prop :=
  s.pjob.valid = true →
    s.pjob.dest = s.rx.hSrc ∧ s.pjob.orig = s.cfg.station ∧ s.pjob.len = s.rx.hLen ∧ s.rx.hCmd = cmdPing

/-- The invariant of the machine: R48 and what makes it inductive. -/
abbrev MachineInv (s : State) : Prop :=
  R48 s ∧ HostJobShape s ∧ EngineIndex s ∧ DirectionHeld s ∧ DoneNotBusy s ∧ CtrlReserved s ∧ ResultCode s ∧
  FilteredDest s ∧ PongAnswersPing s ∧ ParamsCovered s ∧ BufferForm s

/-! ## The accumulators -/

/-- The receiver's accumulator while a frame is received and until it is handed over: the header's sum plus the
payload bytes collected so far (R133). -/
abbrev ReceiveChecksum (s : State) : Prop :=
  s.rx.phase.holdsLock = true ∨ s.rx.phase = .pongWait ∨ s.rx.phase = .deliver →
    s.rx.acc = checksum s.rx.hDest s.rx.hSrc s.rx.hCmd s.rx.hLen (rxbufBytes s s.rx.cursor.toNat)

/-- A frame waiting for its reply or for the host carried the checksum of its fields (R133, R172). -/
abbrev DeliveredChecksum (s : State) : Prop :=
  s.rx.phase = .pongWait ∨ s.rx.phase = .deliver → s.rx.trl = s.rx.acc

/-- The payload bytes of the current job that have been sent: PB(J, 0) to PB(J, n-1) (R221). -/
def sentPayload (s : State) (n : Nat) : List Byte :=
  (List.range n).map (fun i => (payloadByte s i).getD 0x00#8)

/-- The engine's accumulator in each phase: the sum of what has been sent of DEST, SRC, CMD, LEN and the payload
(R132). -/
def TransmitChecksum (s : State) : Prop :=
  ∀ j, currentJob s = some j →
    match s.tx.phase with
    | .idle => True
    | .soh => s.tx.acc = 0x00#8
    | .dest => s.tx.acc = 0x00#8
    | .orig => s.tx.acc = j.dest
    | .cmd => s.tx.acc = j.dest + j.orig
    | .len => s.tx.acc = j.dest + j.orig + j.cmd
    | .stx => s.tx.acc = j.dest + j.orig + j.cmd + j.len
    | .payload => s.tx.acc = checksum j.dest j.orig j.cmd j.len (sentPayload s s.tx.idx.toNat)
    | .etx => s.tx.acc = checksum j.dest j.orig j.cmd j.len (sentPayload s j.len.toNat)
    | .chk => s.tx.acc = checksum j.dest j.orig j.cmd j.len (sentPayload s j.len.toNat)
    | .eot => True
    | .flush => True

/-! ## What is sent -/

/-- The frame of the job the engine serves (R235). -/
def currentFrame (s : State) : List Byte :=
  match s.lock with
  | .txh => hostJobFrame s
  | .txp => pongJobFrame s
  | .none => []
  | .rx => []

/-- How many bytes of the current frame with `l` payload bytes have been sent when the engine is in its present
phase (R90, R223 to R232). -/
def framePos (s : State) (l : Nat) : Nat :=
  match s.tx.phase with
  | .idle => 0
  | .soh => s.tx.idx.toNat
  | .dest => s.cfg.sohN.toNat
  | .orig => s.cfg.sohN.toNat + 1
  | .cmd => s.cfg.sohN.toNat + 2
  | .len => s.cfg.sohN.toNat + 3
  | .stx => s.cfg.sohN.toNat + 4
  | .payload => s.cfg.sohN.toNat + 5 + s.tx.idx.toNat
  | .etx => s.cfg.sohN.toNat + 5 + l
  | .chk => s.cfg.sohN.toNat + 6 + l
  | .eot => s.cfg.sohN.toNat + 7 + l
  | .flush => s.cfg.sohN.toNat + 8 + l

/-! ## Sends -/

/-- What one send command does while CMD_BUSY = 0: the checks of SendCommon in their order, `len` being the length
or none for TOO_LONG, and then the host job (R210). -/
abbrev SendsAs (i : Instr) (kind : JobKind) (dest : Byte) (len : Option Byte) (s : State) : Prop :=
  (s.life ≠ .running → exec i s = .next { s with result := 0x02#8, doneFlag := true }) ∧
  (s.life = .running → s.txCmd = 0xFF#8 → exec i s = .next { s with result := 0x05#8, doneFlag := true }) ∧
  (s.life = .running → s.txCmd ≠ 0xFF#8 → len = none →
    exec i s = .next { s with result := 0x04#8, doneFlag := true }) ∧
  (s.life = .running → s.txCmd ≠ 0xFF#8 → ∀ l, len = some l →
    exec i s = .next { s with
      doneFlag := false
      hjob := { valid := true, dest := dest, orig := s.cfg.station, cmd := s.txCmd, len := l, kind := kind,
                val := s.txVal } })

/-! ## Turns -/

/-- The turn in which the host writes byte `v` to address `a` (R80). -/
abbrev hostWriteTurn (a : Addr) (v : Byte) : Turn := .host ⟨true, false, a, v⟩

/-- The turn is a clock edge with `rst = 1` (R360). -/
abbrev IsReset (t : Turn) : Prop := ∃ c, t = .rst c

end Sys2Proof.Safety
end

