-- ==== Sys2Proof/Certificates/Slice0/Obligations.lean ====
section
/-! DEFINITION. The statements for the provers. "Stated" ones formalise a numbered rule of spec/; the others are
derived from the sections they cite. A statement about a step speaks of `takeTurn`, the agent's own step, or of
`step`, which takes the next turn of `sched` and records what the outputs show. -/

section Slice0Obligations

open Sys2Proof Sys2Proof.Machine Sys2Proof.Safety

/-! ## Encodings -/

/-- R95, R96, R98, R100: the word of every well-formed instruction is read as that instruction, with every operand
at every value. -/
def Obligations.EncodeThenDecodeGivesTheInstruction : Prop :=
  ∀ i : Instr, i.wf = true → decode (encode i) = .ok i

/-- R95, R96, R98, R100: a word that is read as an instruction is the one word of that instruction, and the
instruction is well formed. That a word with R = 1, W = 0 and D not 0 is no instruction, so that a read has one word
alone, is the model's choice (log 16). -/
def Obligations.DecodedWordsAreEncodings : Prop :=
  ∀ (e : Encoded) (i : Instr), decode e = .ok i → encode i = e ∧ i.wf = true

/-- Words written out bit by bit from R95, R98 and R100, one or more of each encoding space. -/
def Obligations.WordsFromTheEncodingTablesDecode : Prop :=
  decode (.command 0b00000001#8) = .ok .cmdOpen ∧
  decode (.command 0b00000110#8) = .ok .sendI16 ∧
  decode (.command 0b00010011#8) = .ok .bsendRaw ∧
  decode (.bus 0b1000000000000101100100#22) = .ok (.wr 0x001#12 0x64#8) ∧
  decode (.bus 0b0100000000010000000000#22) = .ok (.rd 0x004#12) ∧
  decode (.bus 0b1000000000001100000001#22) = .ok (.wrCommand 0x01#8) ∧
  decode (.bus 0b1000000001010000000000#22) = .ok (.wrFrameAck 0x00#8) ∧
  decode (.frameCmd 0b00000101#8) = .ok .ping ∧
  decode (.frameCmd 0b11111111#8) = .ok .catchall

/-- R97: exactly twelve COMMAND values are legal, the illegal ones are three ranges, and an illegal value completes
with ERR_ILLEGAL and no other effect, or is dropped while CMD_BUSY = 1. -/
def Obligations.CommandBytesOutsideTheTwelveAreIllegal : Prop :=
  (∀ v : Byte, (∃ i, decodeCommand v = .ok i) ↔
    v ∈ [0x01#8, 0x02#8, 0x03#8, 0x04#8, 0x05#8, 0x06#8, 0x07#8, 0x13#8, 0x14#8, 0x15#8, 0x16#8, 0x17#8]) ∧
  (∀ v : Byte, decodeCommand v = .error .illegalCommand ↔
    v.toNat = 0x00 ∨ (0x08 ≤ v.toNat ∧ v.toNat ≤ 0x12) ∨ 0x18 ≤ v.toNat) ∧
  (∀ (v : Byte) (s : State), decodeCommand v = .error .illegalCommand → cmdBusy s = false →
    exec (.wrCommand v) s = .next { s with result := 0x07#8, doneFlag := true }) ∧
  (∀ (v : Byte) (s : State), decodeCommand v = .error .illegalCommand → cmdBusy s = true →
    exec (.wrCommand v) s = .next s)

/-! ## Host commands -/

/-- R261: a COMMAND write is dropped while CMD_BUSY = 1; else `done` is cleared and the byte's command runs, and a
byte that is no command raises ERR_ILLEGAL. -/
def Obligations.CommandWriteRunsItsRow : Prop :=
  (∀ (v : Byte) (s : State), cmdBusy s = true → exec (.wrCommand v) s = .next s) ∧
  (∀ (v : Byte) (s : State) (i : Instr), decodeCommand v = .ok i →
    ∃ t, exec (.wrCommand v) s = .next t ∧ exec i s = .next t ∧
      (cmdBusy s = false → exec i { s with doneFlag := false } = .next t)) ∧
  (∀ (v : Byte) (s : State), cmdBusy s = false → (∀ i, decodeCommand v ≠ .ok i) →
    exec (.wrCommand v) s = .next { s with result := 0x07#8, doneFlag := true }) ∧
  decodeCommand 0x01#8 = .ok .cmdOpen ∧ decodeCommand 0x02#8 = .ok .cmdClose ∧
  decodeCommand 0x03#8 = .ok .sendRaw ∧ decodeCommand 0x04#8 = .ok .sendStr ∧
  decodeCommand 0x05#8 = .ok .sendI8 ∧ decodeCommand 0x06#8 = .ok .sendI16 ∧
  decodeCommand 0x07#8 = .ok .sendI32 ∧ decodeCommand 0x13#8 = .ok .bsendRaw ∧
  decodeCommand 0x14#8 = .ok .bsendStr ∧ decodeCommand 0x15#8 = .ok .bsendI8 ∧
  decodeCommand 0x16#8 = .ok .bsendI16 ∧ decodeCommand 0x17#8 = .ok .bsendI32

/-- R262: OPEN's four checks in their order, each refusal changing RESULT and DONE alone, and the state a
successful OPEN leaves, everything not named being unchanged. -/
def Obligations.OpenChecksThenStarts : Prop :=
  ∀ s : State, cmdBusy s = false →
    (s.life = .running → exec .cmdOpen s = .next { s with result := 0x01#8, doneFlag := true }) ∧
    (s.life ≠ .running → s.sohN = 0x00#8 →
      exec .cmdOpen s = .next { s with result := 0x06#8, doneFlag := true }) ∧
    (s.life ≠ .running → s.sohN ≠ 0x00#8 → s.inp.xportOk = false →
      exec .cmdOpen s = .next { s with result := 0x03#8, doneFlag := true }) ∧
    (s.life ≠ .running → s.sohN ≠ 0x00#8 → s.inp.xportOk = true → s.ctrl.getLsbD 0 = true →
      s.inp.deOk = false → exec .cmdOpen s = .next { s with result := 0x03#8, doneFlag := true }) ∧
    (s.life ≠ .running → s.sohN ≠ 0x00#8 → s.inp.xportOk = true →
      (s.ctrl.getLsbD 0 = true → s.inp.deOk = true) →
      exec .cmdOpen s = .next { s with
        cfg := { station := s.station, sohN := s.sohN, deEn := s.ctrl.getLsbD 0 }
        rx := { s.rx with
          phase := .seek, wcnt := 0#3, idle := 0#32, acc := 0x00#8, cursor := 0x00#8, trl := 0x00#8 }
        tx := { phase := .idle, idx := 0x00#8, acc := 0x00#8 }
        lock := .none
        hjob := { s.hjob with valid := false }
        pjob := { s.pjob with valid := false }
        de := false
        life := .running
        result := 0x00#8
        doneFlag := true })

/-- R263: CLOSE is refused while not running; else a frame being received is abandoned, a PING reply and a delivery
are not, and the endpoint begins to close. -/
def Obligations.CloseAbandonsTheFrameAndBeginsToClose : Prop :=
  ∀ s : State, cmdBusy s = false →
    (s.life ≠ .running → exec .cmdClose s = .next { s with result := 0x01#8, doneFlag := true }) ∧
    (s.life = .running →
      s.rx.phase = .waitLock ∨ s.rx.phase = .collect ∨ s.rx.phase = .chkEtx ∨ s.rx.phase = .readChk ∨
        s.rx.phase = .chkEot →
      exec .cmdClose s = .next { s with
        doneFlag := false
        lock := if s.lock = .rx then .none else s.lock
        rx := { s.rx with phase := .seek, wcnt := 0#3, idle := 0#32 }
        life := .closing }) ∧
    (s.life = .running → s.rx.phase = .seek ∨ s.rx.phase = .pongWait ∨ s.rx.phase = .deliver →
      exec .cmdClose s = .next { s with doneFlag := false, life := .closing })

/-- R264: CTL.CLOSE_DONE, in the states that enable it and in all others. -/
def Obligations.CloseDoneStopsTheIdleEndpoint : Prop :=
  ∀ s : State,
    (s.life = .closing ∧ s.rx.phase = .seek ∧ s.lock = .none ∧ s.pjob.valid = false ∧ s.tx.phase = .idle →
      takeTurn .ctl s = .next { s with life := .stopped, de := false, result := 0x00#8, doneFlag := true }) ∧
    (¬ (s.life = .closing ∧ s.rx.phase = .seek ∧ s.lock = .none ∧ s.pjob.valid = false ∧
        s.tx.phase = .idle) →
      takeTurn .ctl s = .next s)

/-- R211, R216: SEND_RAW and BSEND_RAW take TX_LEN bytes of TXBUF, refused above 255, through the checks of
SendCommon. -/
def Obligations.RawSendsCreateTheHostJob : Prop :=
  ∀ s : State, cmdBusy s = false →
    (s.txLen.toNat ≤ 255 →
      SendsAs .sendRaw .raw s.txDest (some (s.txLen.extractLsb' 0 8)) s ∧
      SendsAs .bsendRaw .raw 0x00#8 (some (s.txLen.extractLsb' 0 8)) s) ∧
    (255 < s.txLen.toNat →
      SendsAs .sendRaw .raw s.txDest none s ∧ SendsAs .bsendRaw .raw 0x00#8 none s)

/-- R212, R217: SEND_STR and BSEND_STR take the bytes of TXBUF before its first 0x00, refused when there is none. -/
def Obligations.StringSendsCreateTheHostJob : Prop :=
  ∀ s : State, cmdBusy s = false →
    (∀ k : Nat, k ≤ 255 → txbuf s k = 0x00#8 → (∀ j, j < k → txbuf s j ≠ 0x00#8) →
      SendsAs .sendStr .str s.txDest (some (BitVec.ofNat 8 k)) s ∧
      SendsAs .bsendStr .str 0x00#8 (some (BitVec.ofNat 8 k)) s) ∧
    ((∀ j, j ≤ 255 → txbuf s j ≠ 0x00#8) →
      SendsAs .sendStr .str s.txDest none s ∧ SendsAs .bsendStr .str 0x00#8 none s)

/-- R213, R214, R215, R218, R219, R220: the typed sends, of 1, 2 and 4 bytes of TX_VAL. -/
def Obligations.TypedSendsCreateTheHostJob : Prop :=
  ∀ s : State, cmdBusy s = false →
    SendsAs .sendI8 .i8 s.txDest (some 1#8) s ∧
    SendsAs .sendI16 .i16 s.txDest (some 2#8) s ∧
    SendsAs .sendI32 .i32 s.txDest (some 4#8) s ∧
    SendsAs .bsendI8 .i8 0x00#8 (some 1#8) s ∧
    SendsAs .bsendI16 .i16 0x00#8 (some 2#8) s ∧
    SendsAs .bsendI32 .i32 0x00#8 (some 4#8) s

/-- R67, R68, R73, R237, R366: from its acceptance to its completion a host send keeps its job, its staged
parameters and TXBUF, whatever step any agent takes; it ends only with RESULT = OK, or by reset. -/
def Obligations.AcceptedSendIsKeptUntilItCompletes : Prop :=
  ∀ s t : State, step s = .next t → s.hjob.valid = true →
    (∃ turn rest, s.sched = turn :: rest ∧ IsReset turn) ∨
    (t.txDest = s.txDest ∧ t.txCmd = s.txCmd ∧ t.txLen = s.txLen ∧ t.txVal = s.txVal ∧
      (∀ i, i ≤ 255 → txbuf t i = txbuf s i) ∧
      (t.hjob = s.hjob ∨
        (t.hjob = { s.hjob with valid := false } ∧ s.tx.phase = .flush ∧ t.result = 0x00#8 ∧
          t.doneFlag = true)))

/-! ## Host bus -/

/-- R265: only bit 3 of a byte written to STATUS matters. -/
def Obligations.StatusWriteClearsDone : Prop :=
  ∀ (v : Byte) (s : State),
    (v.getLsbD 3 = true → exec (.wrStatus v) s = .next { s with doneFlag := false }) ∧
    (v.getLsbD 3 = false → exec (.wrStatus v) s = .next s)

/-- R179: FRAME_ACK ends a delivery, has no effect otherwise, and its byte is ignored. -/
def Obligations.FrameAckEndsTheDelivery : Prop :=
  ∀ (v : Byte) (s : State),
    (s.rx.phase = .deliver →
      exec (.wrFrameAck v) s = .next { s with rx := { s.rx with wcnt := 0#3, phase := .seek } }) ∧
    (s.rx.phase ≠ .deliver → exec (.wrFrameAck v) s = .next s)

/-- R266: what a write to each of the 4096 addresses does. -/
def Obligations.HostWriteFollowsTheMap : Prop :=
  ∀ (v : Byte) (s : State),
    exec (.wr 0x000#12 v) s = .next { s with ctrl := 0#5 ++ v.extractLsb' 0 3 } ∧
    exec (.wr 0x001#12 v) s = .next { s with station := v } ∧
    exec (.wr 0x002#12 v) s = .next { s with sohN := v } ∧
    exec (.wr 0x003#12 v) s = exec (.wrCommand v) s ∧
    exec (.wr 0x004#12 v) s = exec (.wrStatus v) s ∧
    exec (.wr 0x014#12 v) s = exec (.wrFrameAck v) s ∧
    (cmdBusy s = false →
      exec (.wr 0x008#12 v) s = .next { s with txDest := v } ∧
      exec (.wr 0x009#12 v) s = .next { s with txCmd := v } ∧
      exec (.wr 0x00A#12 v) s = .next { s with txLen := s.txLen.extractLsb' 8 8 ++ v } ∧
      exec (.wr 0x00B#12 v) s = .next { s with txLen := v ++ s.txLen.extractLsb' 0 8 } ∧
      exec (.wr 0x00C#12 v) s = .next { s with txVal := s.txVal.extractLsb' 8 24 ++ v } ∧
      exec (.wr 0x00D#12 v) s =
        .next { s with txVal := (s.txVal.extractLsb' 16 16 ++ v) ++ s.txVal.extractLsb' 0 8 } ∧
      exec (.wr 0x00E#12 v) s =
        .next { s with txVal := (s.txVal.extractLsb' 24 8 ++ v) ++ s.txVal.extractLsb' 0 16 } ∧
      exec (.wr 0x00F#12 v) s = .next { s with txVal := v ++ s.txVal.extractLsb' 0 24 } ∧
      (∀ i : Nat, i ≤ 255 → ∃ t, exec (.wr (BitVec.ofNat 12 (0x100 + i)) v) s = .next t ∧
        t = { s with buf := t.buf } ∧ txbuf t i = v ∧
        ∀ x : Nat, x ≠ 0x100 + i → readBuf t x = readBuf s x)) ∧
    (cmdBusy s = true → ∀ a : Addr,
      (0x008 ≤ a.toNat ∧ a.toNat ≤ 0x00F) ∨ (0x100 ≤ a.toNat ∧ a.toNat ≤ 0x1FF) →
      exec (.wr a v) s = .next s) ∧
    (∀ a : Addr,
      (0x005 ≤ a.toNat ∧ a.toNat ≤ 0x007) ∨ (0x010 ≤ a.toNat ∧ a.toNat ≤ 0x013) ∨
        (0x015 ≤ a.toNat ∧ a.toNat ≤ 0x0FF) ∨ 0x200 ≤ a.toNat →
      exec (.wr a v) s = .next s)

/-- R267, with STATUS of R29: what a read of each of the 4096 addresses returns, and that it does nothing else; and
the numbers of the named states (R23, R42, R43, R45). -/
def Obligations.HostReadFollowsTheMap : Prop :=
  (∀ (a : Addr) (s : State),
    exec (.rd a) s = .next { s with obs := .read (hostRead a s) :: s.obs }) ∧
  (∀ s : State,
    hostRead 0x000#12 s = 0#5 ++ s.ctrl.extractLsb' 0 3 ∧
    hostRead 0x001#12 s = s.station ∧
    hostRead 0x002#12 s = s.sohN ∧
    hostRead 0x003#12 s = 0x00#8 ∧
    (hostRead 0x004#12 s).extractLsb' 0 2 = s.life.code ∧
    ((hostRead 0x004#12 s).getLsbD 2 = true ↔ s.hjob.valid = true ∨ s.life = .closing) ∧
    (hostRead 0x004#12 s).getLsbD 3 = s.doneFlag ∧
    ((hostRead 0x004#12 s).getLsbD 4 = true ↔ s.rx.phase = .deliver) ∧
    (hostRead 0x004#12 s).extractLsb' 5 2 = s.lock.code ∧
    (hostRead 0x004#12 s).getLsbD 7 = false ∧
    hostRead 0x005#12 s = s.result ∧
    hostRead 0x006#12 s = 0#5 ++ s.rx.phase.code ∧
    hostRead 0x007#12 s =
      ((0#2 ++ BitVec.ofBool s.pjob.valid) ++ BitVec.ofBool s.hjob.valid) ++ s.tx.phase.code ∧
    hostRead 0x008#12 s = s.txDest ∧
    hostRead 0x009#12 s = s.txCmd ∧
    hostRead 0x00A#12 s = s.txLen.extractLsb' 0 8 ∧
    hostRead 0x00B#12 s = s.txLen.extractLsb' 8 8 ∧
    hostRead 0x00C#12 s = s.txVal.extractLsb' 0 8 ∧
    hostRead 0x00D#12 s = s.txVal.extractLsb' 8 8 ∧
    hostRead 0x00E#12 s = s.txVal.extractLsb' 16 8 ∧
    hostRead 0x00F#12 s = s.txVal.extractLsb' 24 8 ∧
    hostRead 0x010#12 s = s.rx.hDest ∧
    hostRead 0x011#12 s = s.rx.hSrc ∧
    hostRead 0x012#12 s = s.rx.hCmd ∧
    hostRead 0x013#12 s = s.rx.hLen ∧
    hostRead 0x014#12 s = 0x00#8 ∧
    hostRead 0x015#12 s = s.cfg.station ∧
    hostRead 0x016#12 s = s.cfg.sohN ∧
    hostRead 0x017#12 s = 0#7 ++ BitVec.ofBool s.cfg.deEn ∧
    hostRead 0x018#12 s = s.rx.acc ∧
    hostRead 0x019#12 s = s.rx.trl ∧
    hostRead 0x01A#12 s = 0#5 ++ s.rx.wcnt ∧
    hostRead 0x01B#12 s = 0#7 ++ BitVec.ofBool s.de ∧
    (∀ i : Nat, i ≤ 255 → hostRead (BitVec.ofNat 12 (0x100 + i)) s = txbuf s i) ∧
    (∀ i : Nat, i ≤ 254 → hostRead (BitVec.ofNat 12 (0x200 + i)) s = rxbuf s i) ∧
    (∀ a : Addr, (0x01C ≤ a.toNat ∧ a.toNat ≤ 0x0FF) ∨ 0x2FF ≤ a.toNat → hostRead a s = 0x00#8)) ∧
  (Life.code .uninit = 0#2 ∧ Life.code .running = 1#2 ∧ Life.code .closing = 2#2 ∧ Life.code .stopped = 3#2) ∧
  (LockOwner.code .none = 0#2 ∧ LockOwner.code .rx = 1#2 ∧ LockOwner.code .txh = 2#2 ∧
    LockOwner.code .txp = 3#2) ∧
  (RxPhase.code .seek = 0#3 ∧ RxPhase.code .waitLock = 1#3 ∧ RxPhase.code .collect = 2#3 ∧
    RxPhase.code .chkEtx = 3#3 ∧ RxPhase.code .readChk = 4#3 ∧ RxPhase.code .chkEot = 5#3 ∧
    RxPhase.code .pongWait = 6#3 ∧ RxPhase.code .deliver = 7#3) ∧
  (TxPhase.code .idle = 0#4 ∧ TxPhase.code .soh = 1#4 ∧ TxPhase.code .dest = 2#4 ∧ TxPhase.code .orig = 3#4 ∧
    TxPhase.code .cmd = 4#4 ∧ TxPhase.code .len = 5#4 ∧ TxPhase.code .stx = 6#4 ∧ TxPhase.code .payload = 7#4 ∧
    TxPhase.code .etx = 8#4 ∧ TxPhase.code .chk = 9#4 ∧ TxPhase.code .eot = 10#4 ∧ TxPhase.code .flush = 11#4)

/-- R65, R67, R75: a byte of the transmit parameters or of TXBUF written while CMD_BUSY = 0 reads back, and every
other address reads as before; the two wide registers are their bytes, least significant first. -/
def Obligations.ParameterWriteReadsBackAndChangesNoOtherByte : Prop :=
  (∀ (a : Addr) (v : Byte) (s : State), cmdBusy s = false →
    (0x008 ≤ a.toNat ∧ a.toNat ≤ 0x00F) ∨ (0x100 ≤ a.toNat ∧ a.toNat ≤ 0x1FF) →
    ∃ t, exec (.wr a v) s = .next t ∧ hostRead a t = v ∧ ∀ b : Addr, b ≠ a → hostRead b t = hostRead b s) ∧
  (∀ s : State,
    s.txLen = hostRead 0x00B#12 s ++ hostRead 0x00A#12 s ∧
    s.txVal = ((hostRead 0x00F#12 s ++ hostRead 0x00E#12 s) ++ hostRead 0x00D#12 s) ++ hostRead 0x00C#12 s)

/-- R40, R41, R266: the frame of every instruction on memory. Every byte of both buffers reads as before, but the
TXBUF byte a host write names while CMD_BUSY = 0, which reads as the written byte. -/
def Obligations.InstructionsStoreOnlyTheNamedTxbufByte : Prop :=
  ∀ (i : Instr) (s t : State), exec i s = .next t → ∀ x : Nat,
    readBuf t x = readBuf s x ∨
    ∃ d, i = .wr (BitVec.ofNat 12 x) d ∧ 0x100 ≤ x ∧ x ≤ 0x1FF ∧ cmdBusy s = false ∧ readBuf t x = d

/-- R70: no read has a side effect, and a write to any address but COMMAND, STATUS and FRAME_ACK only stores, so
that writing the same byte again changes nothing. -/
def Obligations.OnlyThreeWritesDoMoreThanStore : Prop :=
  (∀ (a b : Addr) (s t : State), exec (.rd a) s = .next t →
    t = { s with obs := t.obs } ∧ hostRead b t = hostRead b s) ∧
  (∀ (a : Addr) (v : Byte) (s t : State), a ≠ 0x003#12 → a ≠ 0x004#12 → a ≠ 0x014#12 →
    exec (.wr a v) s = .next t →
    t = { s with
      ctrl := t.ctrl, station := t.station, sohN := t.sohN, txDest := t.txDest, txCmd := t.txCmd,
      txLen := t.txLen, txVal := t.txVal, buf := t.buf } ∧
    exec (.wr a v) t = .next t)

/-- R80: a cycle with `h_we` alone is a write, one with `h_re` alone is a read that drives the value of before the
edge, any other is no access, and `h_rdata` is 0x00 in cycles without a read. -/
def Obligations.HostCycleIsOneAccess : Prop :=
  ∀ (c : HostCycle) (s : State),
    (c.we = true ∧ c.re = false →
      takeTurn (.host c) s = exec (.wr c.addr c.wdata) s ∧ (outputs false c s).hRdata = 0x00#8) ∧
    (c.we = false ∧ c.re = true →
      takeTurn (.host c) s = exec (.rd c.addr) s ∧ (outputs false c s).hRdata = hostRead c.addr s) ∧
    (c.we = c.re → takeTurn (.host c) s = .next s ∧ (outputs false c s).hRdata = 0x00#8)

/-! ## Whole-machine rules for the lifecycle, the result and the flags -/

/-- R23, R38, R262, R263, R264: the four ways `life` changes and the two ways the latched configuration changes. -/
def Obligations.LifeAndConfigurationChangeOnlyByTheirRules : Prop :=
  ∀ s t : State, step s = .next t →
    (t.life ≠ s.life → ∃ turn rest, s.sched = turn :: rest ∧
      ((turn = hostWriteTurn 0x003#12 0x01#8 ∧ s.life ≠ .running ∧ t.life = .running) ∨
        (turn = hostWriteTurn 0x003#12 0x02#8 ∧ s.life = .running ∧ t.life = .closing) ∨
        (turn = .ctl ∧ s.life = .closing ∧ t.life = .stopped) ∨
        (IsReset turn ∧ t.life = .uninit))) ∧
    (t.cfg ≠ s.cfg → ∃ turn rest, s.sched = turn :: rest ∧
      ((turn = hostWriteTurn 0x003#12 0x01#8 ∧ s.life ≠ .running ∧ t.life = .running ∧
          t.cfg = { station := s.station, sohN := s.sohN, deEn := s.ctrl.getLsbD 0 }) ∨
        (IsReset turn ∧ t.cfg = { station := 0x00#8, sohN := 0x01#8, deEn := false })))

/-- R46: the steps that can set `done`, the steps that can clear it, and that RESULT changes only with `done` set
or by reset. -/
def Obligations.DoneAndResultChangeOnlyByTheirRules : Prop :=
  ∀ s t : State, step s = .next t →
    (s.doneFlag = false → t.doneFlag = true → ∃ turn rest, s.sched = turn :: rest ∧
      ((∃ v, turn = hostWriteTurn 0x003#12 v ∧ cmdBusy s = false) ∨
        (turn = .ctl ∧ s.life = .closing) ∨ (turn = .txe ∧ s.tx.phase = .flush))) ∧
    (s.doneFlag = true → t.doneFlag = false → ∃ turn rest, s.sched = turn :: rest ∧
      ((∃ v, turn = hostWriteTurn 0x003#12 v ∧ cmdBusy s = false) ∨
        (∃ v : Byte, turn = hostWriteTurn 0x004#12 v ∧ v.getLsbD 3 = true) ∨ IsReset turn)) ∧
    (t.result ≠ s.result → t.doneFlag = true ∨ ∃ turn rest, s.sched = turn :: rest ∧ IsReset turn)

/-- R47: where CMD_BUSY and FRAME_PEND rise and fall (a reset clears both). -/
def Obligations.BusyAndPendingRiseAndFallWhereNamed : Prop :=
  ∀ s t : State, MachineInv s → step s = .next t →
    (cmdBusy s = false → cmdBusy t = true → ∃ v i rest,
      s.sched = hostWriteTurn 0x003#12 v :: rest ∧ decodeCommand v = .ok i ∧ i ≠ .cmdOpen ∧
        (i = .cmdClose ∧ t.life = .closing ∨ i ≠ .cmdClose ∧ t.hjob.valid = true)) ∧
    (cmdBusy s = true → cmdBusy t = false →
      (t.result = 0x00#8 ∧ t.doneFlag = true) ∨ ∃ turn rest, s.sched = turn :: rest ∧ IsReset turn) ∧
    (framePend s = false → framePend t = true → ∃ rest,
      (s.sched = .rxf :: rest ∧ s.rx.phase = .chkEot) ∨
      (s.sched = .txe :: rest ∧ s.rx.phase = .pongWait ∧ s.tx.phase = .flush)) ∧
    (framePend s = true → framePend t = false → ∃ turn rest, s.sched = turn :: rest ∧
      ((∃ v, turn = hostWriteTurn 0x014#12 v) ∨ IsReset turn))

/-- R234, R326, and R39 for `de`: `irq`, `tx_valid`, `flush_req` and `de` as functions of the state; `tx_data` is 0x00 without a byte and
else the byte the engine transfers when the transport takes it; no other step changes it while the engine waits. -/
def Obligations.OutputsFollowTheState : Prop :=
  (∀ (c : HostCycle) (s : State),
    ((outputs false c s).irq = true ↔
      (s.ctrl.getLsbD 1 = true ∧ s.rx.phase = .deliver) ∨ (s.ctrl.getLsbD 2 = true ∧ s.doneFlag = true)) ∧
    ((outputs false c s).txValid = true ↔ s.tx.phase ≠ .idle ∧ s.tx.phase ≠ .flush) ∧
    ((outputs false c s).flushReq = true ↔ s.tx.phase = .flush) ∧
    (outputs false c s).de = s.de ∧
    ((outputs false c s).txValid = false → (outputs false c s).txData = 0x00#8) ∧
    (∀ t, (outputs false c s).txValid = true → s.inp.txReady = true → takeTurn .txe s = .next t →
      t.obs = .tx (outputs false c s).txData :: s.obs)) ∧
  (∀ (c : HostCycle) (s t : State) (turn : Turn), MachineInv s → (outputs false c s).txValid = true →
    turn ≠ .txe → ¬ IsReset turn → takeTurn turn s = .next t →
    (outputs false c t).txValid = true ∧ (outputs false c t).txData = (outputs false c s).txData)

/-! ## Reception -/

/-- R161: `rx_ready`, and that a received byte leaves the stream only in a step of the receiver in a phase that
takes bytes, one byte a step. That the transport withdraws no byte it has offered is the model's choice (log 10),
so the clause on the steps that change the stream is derived. -/
def Obligations.ReceiverTakesOneByteInItsPhases : Prop :=
  (∀ (c : HostCycle) (s : State),
    (outputs true c s).rxReady = false ∧
    ((outputs false c s).rxReady = true ↔
      s.rx.phase = .seek ∨ s.rx.phase = .collect ∨ s.rx.phase = .chkEtx ∨ s.rx.phase = .readChk ∨
        s.rx.phase = .chkEot)) ∧
  (∀ (turn : Turn) (s t : State), takeTurn turn s = .next t →
    (turn = .rxf → s.rx.phase.takesBytes = true → ∀ b q, s.rxIn = b :: q → t.rxIn = q) ∧
    (t.rxIn ≠ s.rxIn →
      (turn = .rxf ∧ s.rx.phase.takesBytes = true ∧ ∃ b, s.rxIn = b :: t.rxIn) ∨
      (∃ b, turn = .env (.offer b) ∧ t.rxIn = s.rxIn ++ [b])))

/-- R163, R164, R165, R166: a byte in RX_SEEK is dropped while not running, latches the header when it completes
one, and else is shifted into the window. -/
def Obligations.SeekingShiftsOrLatchesTheHeader : Prop :=
  ∀ (s : State) (b : Byte) (q : List Byte), s.rx.phase = .seek → s.rxIn = b :: q →
    (s.life ≠ .running → takeTurn .rxf s = .next { s with rxIn := q }) ∧
    (s.life = .running →
      s.rx.wcnt = 5#3 ∧ s.rx.win.w0 = s.par.soh ∧ b = s.par.stx ∧ s.rx.win.w1 ≠ s.rx.win.w2 →
      takeTurn .rxf s = .next { s with
        rxIn := q
        rx := { s.rx with
          hDest := s.rx.win.w1, hSrc := s.rx.win.w2, hCmd := s.rx.win.w3, hLen := s.rx.win.w4
          wcnt := 0#3, phase := .waitLock } }) ∧
    (s.life = .running →
      ¬ (s.rx.wcnt = 5#3 ∧ s.rx.win.w0 = s.par.soh ∧ b = s.par.stx ∧ s.rx.win.w1 ≠ s.rx.win.w2) →
      takeTurn .rxf s = .next { s with
        rxIn := q
        rx := { s.rx with
          win := ⟨s.rx.win.w1, s.rx.win.w2, s.rx.win.w3, s.rx.win.w4, b⟩
          wcnt := if s.rx.wcnt.toNat < 5 then s.rx.wcnt + 1#3 else 5#3 } })

/-- R167, R168: with the lock free a recognised header takes it and starts the frame if its DEST is this station or
broadcast, and is dropped otherwise; with the lock held the receiver waits. -/
def Obligations.GrantFiltersTheHeader : Prop :=
  ∀ s : State, s.rx.phase = .waitLock →
    (s.lock = .none → s.rx.hDest = s.cfg.station ∨ s.rx.hDest = 0x00#8 →
      takeTurn .rxf s = .next { s with
        lock := .rx
        rx := { s.rx with
          acc := s.rx.hDest + s.rx.hSrc + s.rx.hCmd + s.rx.hLen, cursor := 0x00#8, idle := 0#32
          phase := if 0 < s.rx.hLen.toNat then .collect else .chkEtx } }) ∧
    (s.lock = .none → ¬ (s.rx.hDest = s.cfg.station ∨ s.rx.hDest = 0x00#8) →
      takeTurn .rxf s = .next { s with rx := { s.rx with phase := .seek } }) ∧
    (s.lock ≠ .none → takeTurn .rxf s = .next s)

/-- R169: a payload byte is stored at `rx.cursor` of RXBUF and added to the checksum, every other byte of memory
being unchanged; at the declared length the parser goes on to the trailer. -/
def Obligations.CollectStoresOnePayloadByte : Prop :=
  ∀ (s : State) (b : Byte) (q : List Byte), s.rx.phase = .collect → s.rxIn = b :: q →
    s.rx.cursor.toNat < s.rx.hLen.toNat →
    ∃ t, takeTurn .rxf s = .next t ∧
      t = { s with
        rxIn := q
        buf := t.buf
        rx := { s.rx with
          acc := s.rx.acc + b, cursor := s.rx.cursor + 1#8, idle := 0#32
          phase := if s.rx.cursor + 1#8 = s.rx.hLen then .chkEtx else .collect } } ∧
      rxbuf t s.rx.cursor.toNat = b ∧
      ∀ x : Nat, x ≠ 0x200 + s.rx.cursor.toNat → readBuf t x = readBuf s x

/-- R170, R171: the byte after the payload must be ETX_CODE, else the lock is released and the frame discarded; the
next byte is the trailer checksum. -/
def Obligations.TrailerBytesAreCheckedAndStored : Prop :=
  ∀ (s : State) (b : Byte) (q : List Byte), s.rxIn = b :: q →
    (s.rx.phase = .chkEtx → b = s.par.etx →
      takeTurn .rxf s = .next { s with rxIn := q, rx := { s.rx with idle := 0#32, phase := .readChk } }) ∧
    (s.rx.phase = .chkEtx → b ≠ s.par.etx →
      takeTurn .rxf s = .next { s with
        rxIn := q, lock := .none, rx := { s.rx with idle := 0#32, wcnt := 0#3, phase := .seek } }) ∧
    (s.rx.phase = .readChk →
      takeTurn .rxf s = .next { s with
        rxIn := q, rx := { s.rx with trl := b, idle := 0#32, phase := .chkEot } })

/-- R172, R173: the last byte releases the lock in every case; a valid trailer delivers the frame, or for a PING
queues the reply, and an invalid one discards it. -/
def Obligations.LastByteDispatchesOrDiscards : Prop :=
  ∀ (s : State) (b : Byte) (q : List Byte), s.rx.phase = .chkEot → s.rxIn = b :: q →
    (b = s.par.eot → s.rx.trl = s.rx.acc → s.rx.hCmd = 0x05#8 →
      takeTurn .rxf s = .next { s with
        rxIn := q
        lock := .none
        pjob := { valid := true, dest := s.rx.hSrc, orig := s.cfg.station, len := s.rx.hLen }
        rx := { s.rx with idle := 0#32, phase := .pongWait } }) ∧
    (b = s.par.eot → s.rx.trl = s.rx.acc → s.rx.hCmd ≠ 0x05#8 →
      takeTurn .rxf s = .next { s with
        rxIn := q, lock := .none, rx := { s.rx with idle := 0#32, phase := .deliver } }) ∧
    (¬ (b = s.par.eot ∧ s.rx.trl = s.rx.acc) →
      takeTurn .rxf s = .next { s with
        rxIn := q, lock := .none, rx := { s.rx with idle := 0#32, wcnt := 0#3, phase := .seek } })

/-- R98, R139 to R143, R173: what each reserved command code of a validated frame does. That the instruction of a
command code is the dispatch half of RX.CHK_EOT is the model's reading, log 13. -/
def Obligations.FrameCommandsAnswerOrDeliver : Prop :=
  ∀ s : State,
    exec .ping s = .next { s with
      pjob := { valid := true, dest := s.rx.hSrc, orig := s.cfg.station, len := s.rx.hLen }
      rx := { s.rx with phase := .pongWait } } ∧
    ∀ i, i ∈ [Instr.pong, .qstat, .rstat, .relay, .catchall] →
      exec i s = .next { s with rx := { s.rx with phase := .deliver } }

/-- R174, R185: a step of the receiver or of its idle timer changes the parser, the PONG job, the lock, RXBUF and
the stream alone: it reports nothing, transmits nothing and leaves TXBUF as it is. -/
def Obligations.ReceivePathTouchesNothingElse : Prop :=
  ∀ (turn : Turn) (s t : State), turn = .rxf ∨ turn = .tick ∨ turn = .idleAbort →
    takeTurn turn s = .next t →
    t = { s with rx := t.rx, pjob := t.pjob, lock := t.lock, buf := t.buf, rxIn := t.rxIn } ∧
    (∀ i, i ≤ 255 → txbuf t i = txbuf s i) ∧
    (t.pjob ≠ s.pjob → t.rx.phase = .pongWait)

/-- R180, and the counter of R333: one cycle without a byte, and the idle abort where it is enabled and where it is
not. That such a cycle is a turn of its own, `tick`, is the model's choice (log 17). -/
def Obligations.IdleCounterAndIdleAbort : Prop :=
  ∀ s : State,
    (s.rx.phase = .collect ∨ s.rx.phase = .chkEtx ∨ s.rx.phase = .readChk ∨ s.rx.phase = .chkEot →
      takeTurn .tick s = .next { s with
        rx := { s.rx with idle := if s.rx.idle = 4294967295#32 then s.rx.idle else s.rx.idle + 1#32 } }) ∧
    (¬ (s.rx.phase = .collect ∨ s.rx.phase = .chkEtx ∨ s.rx.phase = .readChk ∨ s.rx.phase = .chkEot) →
      takeTurn .tick s = .next s ∧ takeTurn .idleAbort s = .next s) ∧
    (s.par.tRxIdle ≠ 0#32 →
      s.rx.phase = .collect ∨ s.rx.phase = .chkEtx ∨ s.rx.phase = .readChk ∨ s.rx.phase = .chkEot →
      s.par.tRxIdle.toNat ≤ s.rx.idle.toNat →
      takeTurn .idleAbort s = .next { s with
        lock := .none, rx := { s.rx with wcnt := 0#3, idle := 0#32, phase := .seek } }) ∧
    (s.par.tRxIdle = 0#32 ∨ s.rx.idle.toNat < s.par.tRxIdle.toNat → takeTurn .idleAbort s = .next s)

/-- R40, R41, R48 item 2, R72, R73: whatever step is taken, a byte of TXBUF changes only by a host write while
CMD_BUSY = 0, and a byte of RXBUF only by RX.COLLECT of an accepted frame, at an index below its length. -/
def Obligations.BuffersChangeOnlyByTheirOwners : Prop :=
  ∀ s t : State, MachineInv s → step s = .next t → ∀ x : Nat, readBuf t x ≠ readBuf s x →
    (∃ v rest, s.sched = hostWriteTurn (BitVec.ofNat 12 x) v :: rest ∧ 0x100 ≤ x ∧ x ≤ 0x1FF ∧
      cmdBusy s = false ∧ readBuf t x = v) ∨
    (∃ b q rest, s.sched = .rxf :: rest ∧ s.rxIn = b :: q ∧ s.rx.phase = .collect ∧ s.lock = .rx ∧
      (s.rx.hDest = s.cfg.station ∨ s.rx.hDest = 0x00#8) ∧ s.rx.cursor.toNat < s.rx.hLen.toNat ∧
      x = 0x200 + s.rx.cursor.toNat ∧ readBuf t x = b)

/-- R177: in RX_PONG_WAIT no byte is taken and RXBUF is not written, and the phase is left only by the transmit
step that completes the PONG, which delivers the PING (or by reset). That no byte on offer is withdrawn meanwhile is
the model's choice (log 10). -/
def Obligations.PongWaitEndsOnlyWithTheReply : Prop :=
  ∀ s t : State, MachineInv s → s.rx.phase = .pongWait → step s = .next t →
    (∃ turn rest, s.sched = turn :: rest ∧ IsReset turn) ∨
    ((∀ i, i ≤ 254 → rxbuf t i = rxbuf s i) ∧
      (t.rxIn = s.rxIn ∨ ∃ b, t.rxIn = s.rxIn ++ [b]) ∧
      (t.rx.phase = .pongWait ∨
        (t.rx.phase = .deliver ∧ s.lock = .txp ∧ s.tx.phase = .flush ∧ s.inp.flushDone = true ∧
          ∃ rest, s.sched = .txe :: rest)))

/-- R150, the delivering direction: an encoded frame fed to a running, idle receiver is delivered with all its
fields, or, for a PING, waits for its reply with all its fields. -/
def Obligations.FrameFedIsDelivered : Prop :=
  ∀ (s : State) (n : Nat) (d o c : Byte) (p q : List Byte) (rest : List Turn),
    s.par.Distinct → s.life = .running → s.rx.phase = .seek → s.rx.wcnt = 0#3 → s.lock = .none →
    d = s.cfg.station ∨ d = 0x00#8 → 1 ≤ n → p.length ≤ 255 → d ≠ o →
    ¬ (2 ≤ n ∧ BitVec.ofNat 8 p.length = s.par.stx ∧ d ≠ s.par.soh) →
    s.rxIn = encodeFrame s.par n d o c p ++ q →
    s.sched = List.replicate (n + p.length + 9) .rxf ++ rest →
    ∃ t : State, Sys2Proof.core.run (n + p.length + 9) s = .next t ∧
      t.rx.hDest = d ∧ t.rx.hSrc = o ∧ t.rx.hCmd = c ∧ t.rx.hLen = BitVec.ofNat 8 p.length ∧
      rxbufBytes t p.length = p ∧ t.rxIn = q ∧ t.sched = rest ∧ t.lock = .none ∧
      (c ≠ 0x05#8 → t.rx.phase = .deliver) ∧
      (c = 0x05#8 → t.rx.phase = .pongWait ∧
        t.pjob = { valid := true, dest := o, orig := s.cfg.station, len := BitVec.ofNat 8 p.length })

/-- R183: bytes without a start sentinel before a frame do not keep it from being delivered, or, for a PING, from
waiting for its reply. That the window holds no valid entry at the start is the model's reading (log 23): an entry
kept from before could complete a header with the first of these bytes. -/
def Obligations.NoiseThenFrameIsDelivered : Prop :=
  ∀ (s : State) (g : List Byte) (n : Nat) (d o c : Byte) (p q : List Byte) (rest : List Turn),
    s.par.Distinct → s.life = .running → s.rx.phase = .seek → s.rx.wcnt = 0#3 → s.lock = .none →
    (∀ x, x ∈ g → x ≠ s.par.soh) →
    d = s.cfg.station ∨ d = 0x00#8 → 1 ≤ n → p.length ≤ 255 → d ≠ o →
    ¬ (2 ≤ n ∧ BitVec.ofNat 8 p.length = s.par.stx ∧ d ≠ s.par.soh) →
    s.rxIn = g ++ encodeFrame s.par n d o c p ++ q →
    s.sched = List.replicate (g.length + n + p.length + 9) .rxf ++ rest →
    ∃ t : State, Sys2Proof.core.run (g.length + n + p.length + 9) s = .next t ∧
      t.rx.hDest = d ∧ t.rx.hSrc = o ∧ t.rx.hCmd = c ∧ t.rx.hLen = BitVec.ofNat 8 p.length ∧
      rxbufBytes t p.length = p ∧ t.rxIn = q ∧ t.sched = rest ∧ t.lock = .none ∧
      (c ≠ 0x05#8 → t.rx.phase = .deliver) ∧
      (c = 0x05#8 → t.rx.phase = .pongWait ∧
        t.pjob = { valid := true, dest := o, orig := s.cfg.station, len := BitVec.ofNat 8 p.length })

/-- R133, R151, R172, R174: a frame whose checksum byte is not its checksum, or whose last byte is not EOT_CODE, is
discarded silently: the parser seeks again, the lock is free and nothing is reported or observed. -/
def Obligations.FrameWithAWrongTrailerIsDiscarded : Prop :=
  ∀ (s : State) (n : Nat) (d o c x y : Byte) (p q : List Byte) (rest : List Turn),
    s.par.Distinct → s.life = .running → s.rx.phase = .seek → s.rx.wcnt = 0#3 → s.lock = .none →
    d = s.cfg.station ∨ d = 0x00#8 → 1 ≤ n → p.length ≤ 255 → d ≠ o →
    ¬ (2 ≤ n ∧ BitVec.ofNat 8 p.length = s.par.stx ∧ d ≠ s.par.soh) →
    x ≠ checksum d o c (BitVec.ofNat 8 p.length) p ∨ y ≠ s.par.eot →
    s.rxIn = List.replicate n s.par.soh ++ [d, o, c, BitVec.ofNat 8 p.length, s.par.stx] ++ p ++
      [s.par.etx, x, y] ++ q →
    s.sched = List.replicate (n + p.length + 9) .rxf ++ rest →
    ∃ t : State, Sys2Proof.core.run (n + p.length + 9) s = .next t ∧
      t.rx.phase = .seek ∧ t.rx.wcnt = 0#3 ∧ t.lock = .none ∧ t.rxIn = q ∧
      t.pjob = s.pjob ∧ t.result = s.result ∧ t.doneFlag = s.doneFlag ∧ t.obs = s.obs

/-- R133: the receiver's accumulator is at all times the checksum of the header and of the payload collected so far,
and a frame that is answered or delivered carried its own checksum. -/
def Obligations.ReceiveChecksumIsKept : Prop :=
  ∀ s t : State, MachineInv s → ReceiveChecksum s → DeliveredChecksum s → step s = .next t →
    ReceiveChecksum t ∧ DeliveredChecksum t

/-! ## Transmission -/

/-- R222, R293, R294, and the order of R295: the two transmit grants and what the granted step does; at most one of
the three grants is enabled. -/
def Obligations.GrantsAreExclusiveAndStartTheFrame : Prop :=
  ∀ s : State,
    (grantTxp s = true ↔
      s.lock = .none ∧ s.tx.phase = .idle ∧ s.pjob.valid = true ∧ s.rx.phase ≠ .waitLock) ∧
    (grantTxh s = true ↔
      s.lock = .none ∧ s.tx.phase = .idle ∧ s.hjob.valid = true ∧ s.pjob.valid = false ∧
        s.rx.phase ≠ .waitLock) ∧
    (grantRx s = true → grantTxp s = false ∧ grantTxh s = false) ∧
    (grantTxp s = true → grantTxh s = false) ∧
    (grantTxp s = true → takeTurn .txe s = .next { s with
      lock := .txp, de := s.cfg.deEn, tx := { phase := .soh, idx := 0x00#8, acc := 0x00#8 } }) ∧
    (grantTxh s = true → takeTurn .txe s = .next { s with
      lock := .txh, de := s.cfg.deEn, tx := { phase := .soh, idx := 0x00#8, acc := 0x00#8 } }) ∧
    (s.tx.phase = .idle → grantTxp s = false → grantTxh s = false → takeTurn .txe s = .next s)

/-- R221 to R232: the job being served and its payload bytes, and the one byte each phase transfers when the
transport takes it, with the engine's next state. -/
def Obligations.EngineSendsItsPhaseByte : Prop :=
  (∀ s : State, s.lock = .txh →
    currentJob s = some { dest := s.hjob.dest, orig := s.hjob.orig, cmd := s.hjob.cmd, len := s.hjob.len } ∧
    ∀ i : Nat, i < s.hjob.len.toNat →
      (s.hjob.kind = .raw ∨ s.hjob.kind = .str → payloadByte s i = some (txbuf s i)) ∧
      (s.hjob.kind = .i8 ∧ i < 1 ∨ s.hjob.kind = .i16 ∧ i < 2 ∨ s.hjob.kind = .i32 ∧ i < 4 →
        payloadByte s i = some (s.hjob.val.extractLsb' (8 * i) 8))) ∧
  (∀ s : State, s.lock = .txp →
    currentJob s = some { dest := s.pjob.dest, orig := s.pjob.orig, cmd := 0x06#8, len := s.pjob.len } ∧
    ∀ i : Nat, i < s.pjob.len.toNat → payloadByte s i = some (rxbuf s i)) ∧
  (∀ (s : State) (j : Job), s.inp.txReady = true → currentJob s = some j →
    (s.tx.phase = .soh → takeTurn .txe s = .next { s with
      obs := .tx s.par.soh :: s.obs
      tx := { s.tx with
        idx := if s.tx.idx + 1#8 = s.cfg.sohN then 0x00#8 else s.tx.idx + 1#8
        phase := if s.tx.idx + 1#8 = s.cfg.sohN then .dest else .soh } }) ∧
    (s.tx.phase = .dest → takeTurn .txe s = .next { s with
      obs := .tx j.dest :: s.obs, tx := { s.tx with acc := s.tx.acc + j.dest, phase := .orig } }) ∧
    (s.tx.phase = .orig → takeTurn .txe s = .next { s with
      obs := .tx j.orig :: s.obs, tx := { s.tx with acc := s.tx.acc + j.orig, phase := .cmd } }) ∧
    (s.tx.phase = .cmd → takeTurn .txe s = .next { s with
      obs := .tx j.cmd :: s.obs, tx := { s.tx with acc := s.tx.acc + j.cmd, phase := .len } }) ∧
    (s.tx.phase = .len → takeTurn .txe s = .next { s with
      obs := .tx j.len :: s.obs, tx := { s.tx with acc := s.tx.acc + j.len, phase := .stx } }) ∧
    (s.tx.phase = .stx → takeTurn .txe s = .next { s with
      obs := .tx s.par.stx :: s.obs
      tx := { s.tx with idx := 0x00#8, phase := if 0 < j.len.toNat then .payload else .etx } }) ∧
    (s.tx.phase = .payload → ∀ b, payloadByte s s.tx.idx.toNat = some b → takeTurn .txe s = .next { s with
      obs := .tx b :: s.obs
      tx := { s.tx with
        acc := s.tx.acc + b, idx := s.tx.idx + 1#8
        phase := if s.tx.idx + 1#8 = j.len then .etx else .payload } }) ∧
    (s.tx.phase = .etx → takeTurn .txe s = .next { s with
      obs := .tx s.par.etx :: s.obs, tx := { s.tx with phase := .chk } }) ∧
    (s.tx.phase = .chk → takeTurn .txe s = .next { s with
      obs := .tx s.tx.acc :: s.obs, tx := { s.tx with phase := .eot } }) ∧
    (s.tx.phase = .eot → takeTurn .txe s = .next { s with
      obs := .tx s.par.eot :: s.obs, tx := { s.tx with phase := .flush } })) ∧
  (∀ s : State, s.inp.txReady = false → s.tx.phase ≠ .idle → s.tx.phase ≠ .flush →
    takeTurn .txe s = .next s)

/-- R233: the completion of a host job, of a PONG job, and the wait for the flush. -/
def Obligations.FlushCompletesTheJob : Prop :=
  ∀ s : State, s.tx.phase = .flush →
    (s.inp.flushDone = true → s.lock = .txh → takeTurn .txe s = .next { s with
      de := false, tx := { s.tx with phase := .idle }, lock := .none
      hjob := { s.hjob with valid := false }, result := 0x00#8, doneFlag := true }) ∧
    (s.inp.flushDone = true → s.lock = .txp → takeTurn .txe s = .next { s with
      de := false, tx := { s.tx with phase := .idle }, lock := .none
      pjob := { s.pjob with valid := false }, rx := { s.rx with phase := .deliver } }) ∧
    (s.inp.flushDone = false → takeTurn .txe s = .next s)

/-- R235, what is sent: in every phase the byte the engine offers is the next byte of EncodeFrame of its job, and
the step that transfers it moves on by one. -/
def Obligations.NextByteSentIsTheNextByteOfTheFrame : Prop :=
  ∀ (s : State) (j : Job), MachineInv s → TransmitChecksum s → currentJob s = some j →
    s.tx.phase ≠ .idle → s.tx.phase ≠ .flush →
    ∃ b, (currentFrame s)[framePos s j.len.toNat]? = some b ∧ txByte s = some b ∧
      (s.inp.txReady = true → ∃ t, takeTurn .txe s = .next t ∧ t.obs = .tx b :: s.obs ∧
        currentFrame t = currentFrame s ∧ framePos t j.len.toNat = framePos s j.len.toNat + 1)

/-- R235, R290: no other agent's step disturbs a transmission: it transmits nothing and changes neither the engine,
the lock, direction control, the job nor any byte of the frame. -/
def Obligations.TransmissionIsNotDisturbed : Prop :=
  ∀ (turn : Turn) (s t : State), MachineInv s → s.tx.phase ≠ .idle → turn ≠ .txe → ¬ IsReset turn →
    takeTurn turn s = .next t →
    t.tx = s.tx ∧ t.lock = s.lock ∧ t.de = s.de ∧ currentJob t = currentJob s ∧
      currentFrame t = currentFrame s ∧ sentBytes t.obs = sentBytes s.obs

/-- R235, R237, R377's order: with a transport that takes every byte and completes the flush, an accepted host send
puts exactly its frame on the line and ends with RESULT = OK. -/
def Obligations.HostSendTransmitsExactlyItsFrame : Prop :=
  ∀ (s : State) (rest : List Turn), MachineInv s → s.hjob.valid = true → s.pjob.valid = false →
    s.lock = .none → s.rx.phase ≠ .waitLock → s.inp.txReady = true → s.inp.flushDone = true →
    s.sched = List.replicate (s.cfg.sohN.toNat + s.hjob.len.toNat + 10) .txe ++ rest →
    ∃ t : State, Sys2Proof.core.run (s.cfg.sohN.toNat + s.hjob.len.toNat + 10) s = .next t ∧
      sentBytes t.obs = sentBytes s.obs ++ hostJobFrame s ∧
      t.hjob.valid = false ∧ t.result = 0x00#8 ∧ t.doneFlag = true ∧ t.lock = .none ∧ t.de = false ∧
      t.tx.phase = .idle ∧ t.sched = rest

/-- R139, R176, R177: a queued reply puts exactly the PONG of the PING the parser holds on the line, and the PING is
delivered after it. -/
def Obligations.PongReplyIsSentBeforeTheDelivery : Prop :=
  ∀ (s : State) (rest : List Turn), MachineInv s → s.pjob.valid = true → s.lock = .none →
    s.inp.txReady = true → s.inp.flushDone = true →
    s.sched = List.replicate (s.cfg.sohN.toNat + s.rx.hLen.toNat + 10) .txe ++ rest →
    ∃ t : State, Sys2Proof.core.run (s.cfg.sohN.toNat + s.rx.hLen.toNat + 10) s = .next t ∧
      sentBytes t.obs = sentBytes s.obs ++
        encodeFrame s.par s.cfg.sohN.toNat s.rx.hSrc s.cfg.station 0x06#8 (rxbufBytes s s.rx.hLen.toNat) ∧
      t.pjob.valid = false ∧ t.rx.phase = .deliver ∧ t.lock = .none ∧ t.de = false ∧ t.sched = rest

/-- R150, R235, R335: a frame one instance sends is delivered by the other with all its fields, and its sender ends
with RESULT = OK. The payload is that of the send command (R144 to R148). That the transport between them neither
loses nor delays nor echoes a byte is the model's choice (log 21). -/
def Obligations.JoinedEndpointsDeliverTheSentFrame : Prop :=
  ∀ (p : Joined) (la lb : List Turn), MachineInv p.a → p.a.hjob.valid = true → p.a.pjob.valid = false →
    p.a.lock = .none → p.a.rx.phase ≠ .waitLock → p.a.inp.txReady = true → p.a.inp.flushDone = true →
    p.b.par = p.a.par → p.b.life = .running → p.b.rx.phase = .seek → p.b.rx.wcnt = 0#3 → p.b.lock = .none →
    p.b.rxIn = [] →
    p.a.hjob.dest = p.b.cfg.station ∨ p.a.hjob.dest = 0x00#8 → p.a.hjob.dest ≠ p.a.hjob.orig →
    ¬ (2 ≤ p.a.cfg.sohN.toNat ∧ p.a.hjob.len = p.a.par.stx ∧ p.a.hjob.dest ≠ p.a.par.soh) →
    p.a.sched = List.replicate (p.a.cfg.sohN.toNat + p.a.hjob.len.toNat + 10) .txe ++ la →
    p.b.sched = List.replicate (p.a.cfg.sohN.toNat + p.a.hjob.len.toNat + 9) .rxf ++ lb →
    ∃ q : Joined,
      Joined.run (List.replicate (p.a.cfg.sohN.toNat + p.a.hjob.len.toNat + 10) .a ++
        List.replicate (p.a.cfg.sohN.toNat + p.a.hjob.len.toNat + 9) .b) p = .next q ∧
      q.a.result = 0x00#8 ∧ q.a.doneFlag = true ∧ q.a.hjob.valid = false ∧
      q.b.rx.hDest = p.a.hjob.dest ∧ q.b.rx.hSrc = p.a.hjob.orig ∧ q.b.rx.hCmd = p.a.hjob.cmd ∧
      q.b.rx.hLen = p.a.hjob.len ∧ rxbufBytes q.b p.a.hjob.len.toNat = hostJobPayload p.a ∧ q.b.rxIn = [] ∧
      q.b.rx.phase = if p.a.hjob.cmd = 0x05#8 then .pongWait else .deliver

/-- R132: the engine's accumulator is in every phase the checksum of what it has sent of DEST, SRC, CMD, LEN and
the payload. -/
def Obligations.TransmitChecksumIsKept : Prop :=
  ∀ s t : State, MachineInv s → TransmitChecksum s → step s = .next t → TransmitChecksum t

/-- R130: the checksum is the sum of the header and payload bytes modulo 256, in any order of the payload. -/
def Obligations.ChecksumIsTheSumModulo256 : Prop :=
  (∀ (d o c l : Byte) (p : List Byte),
    (checksum d o c l p).toNat =
      (d.toNat + o.toNat + c.toNat + l.toNat + (p.map BitVec.toNat).sum) % 256) ∧
  (∀ (d o c l : Byte) (p q : List Byte), p.Perm q → checksum d o c l p = checksum d o c l q) ∧
  checksum 0x64#8 0x32#8 0x58#8 0x03#8 [0x01#8, 0x02#8, 0x03#8] = 0xF7#8

/-- R236: direction control rises only in the grant, with its enable set, falls only in the completed flush (or at
reset), and every byte is sent while it equals its enable; between jobs it is 0. -/
def Obligations.DirectionControlBracketsTheFrame : Prop :=
  ∀ s t : State, MachineInv s → step s = .next t →
    (s.de = false → t.de = true → s.tx.phase = .idle ∧ t.tx.phase = .soh ∧ s.cfg.deEn = true) ∧
    (s.de = true → t.de = false →
      (s.tx.phase = .flush ∧ s.inp.flushDone = true ∧ t.tx.phase = .idle) ∨
      ∃ turn rest, s.sched = turn :: rest ∧ IsReset turn) ∧
    (sentBytes t.obs ≠ sentBytes s.obs → s.de = s.cfg.deEn ∧ t.de = s.cfg.deEn) ∧
    (s.tx.phase = .idle → s.de = false)

/-- R291: the steps that change the holder of the channel lock, and no others (OPEN sets NONE, but is accepted only
where the lock is free already). -/
def Obligations.LockChangesOnlyAtItsIntervals : Prop :=
  ∀ s t : State, MachineInv s → step s = .next t → t.lock ≠ s.lock →
    ∃ turn rest, s.sched = turn :: rest ∧
      ((s.lock = .none ∧ t.lock = .rx ∧ turn = .rxf ∧ s.rx.phase = .waitLock ∧
          (s.rx.hDest = s.cfg.station ∨ s.rx.hDest = 0x00#8)) ∨
        (s.lock = .none ∧ t.lock = .txh ∧ turn = .txe ∧ s.tx.phase = .idle ∧ s.hjob.valid = true) ∨
        (s.lock = .none ∧ t.lock = .txp ∧ turn = .txe ∧ s.tx.phase = .idle ∧ s.pjob.valid = true) ∨
        (s.lock = .rx ∧ t.lock = .none ∧ turn = .rxf ∧ (s.rx.phase = .chkEtx ∨ s.rx.phase = .chkEot)) ∨
        (s.lock = .rx ∧ t.lock = .none ∧ turn = .idleAbort) ∨
        (s.lock = .rx ∧ t.lock = .none ∧ turn = hostWriteTurn 0x003#12 0x02#8) ∨
        ((s.lock = .txh ∨ s.lock = .txp) ∧ t.lock = .none ∧ turn = .txe ∧ s.tx.phase = .flush ∧
          s.inp.flushDone = true) ∨
        (t.lock = .none ∧ IsReset turn))

/-! ## Reset, invariants and the step -/

/-- R360, R49, R50, R361: a clock edge with `rst = 1` gives every piece of state its reset value whatever the host
drives, keeps both buffers, and shows 0 on every output. That it keeps the parameters, the input levels, the offered
bytes and the observations is the model's reading (log 18). -/
def Obligations.ResetEdgeGivesTheResetValues : Prop :=
  ∀ (c : HostCycle) (s : State),
    (∃ t, takeTurn (.rst c) s = .next t ∧
      t.life = .uninit ∧ t.ctrl = 0x00#8 ∧ t.station = 0x00#8 ∧ t.sohN = 0x01#8 ∧ t.txDest = 0x00#8 ∧
      t.txCmd = 0x00#8 ∧ t.txLen = 0#16 ∧ t.txVal = 0#32 ∧
      t.cfg = { station := 0x00#8, sohN := 0x01#8, deEn := false } ∧
      t.result = 0x00#8 ∧ t.doneFlag = false ∧
      t.rx = { phase := .seek, win := ⟨0x00#8, 0x00#8, 0x00#8, 0x00#8, 0x00#8⟩, wcnt := 0#3, hDest := 0x00#8,
               hSrc := 0x00#8, hCmd := 0x00#8, hLen := 0x00#8, acc := 0x00#8, cursor := 0x00#8,
               trl := 0x00#8, idle := 0#32 } ∧
      t.tx = { phase := .idle, idx := 0x00#8, acc := 0x00#8 } ∧
      t.hjob.valid = false ∧ t.hjob.dest = 0x00#8 ∧ t.hjob.orig = 0x00#8 ∧ t.hjob.cmd = 0x00#8 ∧
      t.hjob.len = 0x00#8 ∧ t.hjob.val = 0#32 ∧
      t.pjob = { valid := false, dest := 0x00#8, orig := 0x00#8, len := 0x00#8 } ∧
      t.lock = .none ∧ t.de = false ∧
      (∀ x : Nat, readBuf t x = readBuf s x) ∧
      t.par = s.par ∧ t.inp = s.inp ∧ t.rxIn = s.rxIn ∧ t.obs = s.obs) ∧
    outputs true c s = { hRdata := 0x00#8, irq := false, rxReady := false, txValid := false, txData := 0x00#8,
                         flushReq := false, de := false }

/-- R24, R49: what every register reads after reset: 0x00 but for SOH_N and CFG_SOH_N, which read 0x01. -/
def Obligations.RegistersReadTheirResetValues : Prop :=
  ∀ a : Addr, a.toNat < 0x100 →
    hostRead a State.reset = if a = 0x002#12 ∨ a = 0x016#12 then 0x01#8 else 0x00#8

/-- R48 and the checksum invariants hold in the state after reset (whose parameters and inputs are the model's
choice, log 4 and log 9). -/
def Obligations.InvariantHoldsAfterReset : Prop :=
  MachineInv State.reset ∧ ReceiveChecksum State.reset ∧ DeliveredChecksum State.reset ∧
    TransmitChecksum State.reset

/-- R48: every step of every agent keeps the machine's invariant, from every state that meets it. -/
def Obligations.InvariantIsKeptByEveryStep : Prop :=
  ∀ s t : State, MachineInv s → step s = .next t → MachineInv t

/-- R269, R320: the block has no fault state: a state that meets the invariant always has a next one. -/
def Obligations.InvariantStatesNeverStop : Prop :=
  ∀ s : State, MachineInv s → ∃ t, step s = .next t

/-- R12, R14, R80, R173, R261: a step takes the next turn of `sched` (log 1; with none it changes nothing, log 2) and
adds what the outputs show: each change of `de`, each rise of `flush_req`, each change of `irq` (their order, log 11);
a bus cycle runs its decoded instruction (a read cycle has the word with D = 0, log 16), a byte written to COMMAND the
command's row, and a validated frame the row of its command code (log 13). -/
def Obligations.StepRunsTheDecodedInstruction : Prop :=
  (∀ s : State, s.par.Distinct → s.sched = [] → step s = .next s) ∧
  (∀ (s u : State) (turn : Turn) (rest : List Turn), s.par.Distinct → s.sched = turn :: rest →
    takeTurn turn { s with sched := rest } = .next u → step s = .next (observeOutputs s u)) ∧
  (∀ (c : HostCycle) (s u : State), observeOutputs s u = { u with
    obs :=
      (if (outputs false c s).irq ≠ (outputs false c u).irq then [.irq (outputs false c u).irq] else []) ++
      (if (outputs false c s).flushReq = false ∧ (outputs false c u).flushReq = true then [.flushReq] else []) ++
      (if (outputs false c s).de ≠ (outputs false c u).de then [.de (outputs false c u).de] else []) ++ u.obs }) ∧
  (∀ (a : Addr) (d : Byte), busWord ⟨true, false, a, d⟩ = writeWord a d ∧
    busWord ⟨false, true, a, d⟩ = readWord a) ∧
  (∀ (s : State) (c : HostCycle) (rest : List Turn) (i : Instr), s.par.Distinct →
    s.sched = .host c :: rest → decodeBus (busWord c) = .ok i →
    ∃ u, exec i { s with sched := rest } = .next u ∧ step s = .next (observeOutputs s u)) ∧
  (∀ (s : State) (v : Byte) (rest : List Turn) (i : Instr), s.par.Distinct →
    s.sched = hostWriteTurn 0x003#12 v :: rest → decodeCommand v = .ok i →
    ∃ u, exec i { s with sched := rest } = .next u ∧ step s = .next (observeOutputs s u)) ∧
  (∀ (s : State) (q : List Byte) (rest : List Turn) (i : Instr), s.par.Distinct →
    s.sched = .rxf :: rest → s.rx.phase = .chkEot → s.rxIn = s.par.eot :: q → s.rx.trl = s.rx.acc →
    decodeFrameCmd s.rx.hCmd = .ok i →
    ∃ u, exec i { s with sched := rest, rxIn := q, lock := .none, rx := { s.rx with idle := 0#32 } } = .next u ∧
      step s = .next (observeOutputs s u))

/-- The model's placement of a table word (log 12, log 14): a word that `decodeTableWord` reads as an instruction is
the instruction the very next step runs: a host access on the state as it is, a command code on a running endpoint
whose frame has just been found valid. -/
def Obligations.PlacedTableWordRunsNext : Prop :=
  ∀ (s : State) (nbits w : Nat) (i : Instr), s.par.Distinct → decodeTableWord nbits w = some i →
    ((∀ b, encode i ≠ .frameCmd b) → ∃ u, exec i s = .next u ∧
      step (s.withFetchWord nbits w) = .next (observeOutputs (s.withFetchWord nbits w) u)) ∧
    (∀ b, encode i = .frameCmd b → ∃ u,
      exec i { s with
        life := .running
        lock := .none
        rx := { s.rx with
          phase := .chkEot, wcnt := 0#3, hCmd := b, cursor := s.rx.hLen, trl := s.rx.acc, idle := 0#32 } } =
        .next u ∧
      step (s.withFetchWord nbits w) = .next (observeOutputs (s.withFetchWord nbits w) u))

/-- R22, R51: no step changes a parameter or what an unwritten buffer byte is (log 4, log 7); the input levels change
only in a step of the environment, which changes nothing of the block's own state. -/
def Obligations.ParametersAndInputsAreNotTheBlocksState : Prop :=
  ∀ s t : State, step s = .next t →
    t.par = s.par ∧ t.powerUp = s.powerUp ∧
    (t.inp ≠ s.inp → ∃ e rest, s.sched = .env e :: rest) ∧
    (∀ e rest, s.sched = .env e :: rest → t = { s with inp := t.inp, rxIn := t.rxIn, sched := rest })

end Slice0Obligations
end

