-- ==== Sys2Proof/Laws/Memory.lean ====
section
/-! SUPPORT. The laws of the buffers' list: a read after a write, and that a write keeps the canonical form. -/

namespace Sys2Proof.Machine

@[simp] theorem Memory.lookup_nil (a : Nat) : Memory.lookup [] a = none := rfl

theorem Memory.lookup_store_same (m : Memory) (a : Nat) (v : Byte) :
    Memory.lookup (Memory.store m a v) a = some v := by
  induction m with
  | nil => simp [Memory.store, Memory.lookup]
  | cons c m ih =>
    obtain ⟨k, w⟩ := c
    unfold Memory.store
    split
    · simp [Memory.lookup]
    · split
      · simp [Memory.lookup]
      · have hk : k ≠ a := by omega
        simp [Memory.lookup, hk, ih]

theorem Memory.lookup_store_other (m : Memory) (a b : Nat) (v : Byte) (h : b ≠ a) :
    Memory.lookup (Memory.store m a v) b = Memory.lookup m b := by
  induction m with
  | nil => simp [Memory.store, Memory.lookup, Ne.symm h]
  | cons c m ih =>
    obtain ⟨k, w⟩ := c
    unfold Memory.store
    split
    · simp [Memory.lookup, Ne.symm h]
    · split
      · rename_i hk
        subst hk
        simp [Memory.lookup, Ne.symm h]
      · simp only [Memory.lookup, ih]

theorem Memory.risesFrom_store (m : Memory) (lo a : Nat) (v : Byte) (hlo : lo < a)
    (ha : isBufferAddr a = true) (hm : Memory.risesFrom lo m = true) :
    Memory.risesFrom lo (Memory.store m a v) = true := by
  induction m generalizing lo with
  | nil => simp [Memory.store, Memory.risesFrom, hlo, ha]
  | cons c m ih =>
    obtain ⟨k, w⟩ := c
    simp only [Memory.risesFrom, Bool.and_eq_true, decide_eq_true_eq] at hm
    obtain ⟨⟨hk, hb⟩, hr⟩ := hm
    unfold Memory.store
    split
    · rename_i hak
      simp [Memory.risesFrom, hlo, ha, hak, hb, hr]
    · split
      · rename_i hak
        subst hak
        simp [Memory.risesFrom, hk, hb, hr]
      · have hka : k < a := by omega
        simp [Memory.risesFrom, hk, hb, ih k hka hr]

/-- A write to a buffer address keeps the canonical form. -/
theorem Memory.store_wf (m : Memory) (a : Nat) (v : Byte) (ha : isBufferAddr a = true)
    (hm : Memory.wf m = true) : Memory.wf (Memory.store m a v) = true := by
  have h0 : 0 < a := by
    simp only [isBufferAddr, Bool.and_eq_true, decide_eq_true_eq] at ha
    omega
  exact Memory.risesFrom_store m 0 a v h0 ha hm

/-- TXBUF[i] is a buffer address for i ≤ 255. -/
theorem isBufferAddr_txbuf (i : Nat) (h : i ≤ 255) : isBufferAddr (txbufBase + i) = true := by
  simp [isBufferAddr, txbufBase]
  omega

/-- RXBUF[i] is a buffer address for i ≤ 254. -/
theorem isBufferAddr_rxbuf (i : Nat) (h : i ≤ 254) : isBufferAddr (rxbufBase + i) = true := by
  simp [isBufferAddr, rxbufBase]
  omega

/-! ## Reads of the buffers after a write -/

theorem txbuf_storeTxbuf_same (s : State) (i : Nat) (v : Byte) : txbuf (storeTxbuf i v s) i = v := by
  simp [txbuf, readBuf, storeTxbuf, Memory.lookup_store_same]

theorem txbuf_storeTxbuf_other (s : State) (i j : Nat) (v : Byte) (h : j ≠ i) :
    txbuf (storeTxbuf i v s) j = txbuf s j := by
  have : txbufBase + j ≠ txbufBase + i := by omega
  simp [txbuf, readBuf, storeTxbuf, Memory.lookup_store_other _ _ _ _ this]

theorem rxbuf_storeRxbuf_same (s : State) (i : Nat) (v : Byte) : rxbuf (storeRxbuf i v s) i = v := by
  simp [rxbuf, readBuf, storeRxbuf, Memory.lookup_store_same]

theorem rxbuf_storeRxbuf_other (s : State) (i j : Nat) (v : Byte) (h : j ≠ i) :
    rxbuf (storeRxbuf i v s) j = rxbuf s j := by
  have : rxbufBase + j ≠ rxbufBase + i := by omega
  simp [rxbuf, readBuf, storeRxbuf, Memory.lookup_store_other _ _ _ _ this]

/-- The two buffers do not overlap: a write to TXBUF leaves RXBUF alone. -/
theorem rxbuf_storeTxbuf (s : State) (i j : Nat) (v : Byte) (h : i ≤ 255) :
    rxbuf (storeTxbuf i v s) j = rxbuf s j := by
  have : rxbufBase + j ≠ txbufBase + i := by simp only [rxbufBase, txbufBase]; omega
  simp [rxbuf, readBuf, storeTxbuf, Memory.lookup_store_other _ _ _ _ this]

/-- The two buffers do not overlap: a write to RXBUF leaves TXBUF alone. -/
theorem txbuf_storeRxbuf (s : State) (i j : Nat) (v : Byte) (h : j ≤ 255) :
    txbuf (storeRxbuf i v s) j = txbuf s j := by
  have : txbufBase + j ≠ rxbufBase + i := by simp only [rxbufBase, txbufBase]; omega
  simp [txbuf, readBuf, storeRxbuf, Memory.lookup_store_other _ _ _ _ this]

/-- What a buffer read depends on: the list and the power-up. -/
theorem readBuf_congr (s t : State) (hb : t.buf = s.buf) (hp : t.powerUp = s.powerUp) (a : Nat) :
    readBuf t a = readBuf s a := by
  simp [readBuf, hb, hp]

end Sys2Proof.Machine
end

