-- ==== Sys2Proof/Laws/State.lean ====
section
/-! SUPPORT. One lemma per field per update, true by rfl and tagged for simp, for the shared updates of
Machine/Ops.lean, and for the observation of the outputs. -/

namespace Sys2Proof.Machine

/-! ## raiseResult -/

@[simp] theorem raiseResult_life (c : Byte) (s : State) : (raiseResult c s).life = s.life := rfl
@[simp] theorem raiseResult_ctrl (c : Byte) (s : State) : (raiseResult c s).ctrl = s.ctrl := rfl
@[simp] theorem raiseResult_station (c : Byte) (s : State) : (raiseResult c s).station = s.station := rfl
@[simp] theorem raiseResult_sohN (c : Byte) (s : State) : (raiseResult c s).sohN = s.sohN := rfl
@[simp] theorem raiseResult_txDest (c : Byte) (s : State) : (raiseResult c s).txDest = s.txDest := rfl
@[simp] theorem raiseResult_txCmd (c : Byte) (s : State) : (raiseResult c s).txCmd = s.txCmd := rfl
@[simp] theorem raiseResult_txLen (c : Byte) (s : State) : (raiseResult c s).txLen = s.txLen := rfl
@[simp] theorem raiseResult_txVal (c : Byte) (s : State) : (raiseResult c s).txVal = s.txVal := rfl
@[simp] theorem raiseResult_cfg (c : Byte) (s : State) : (raiseResult c s).cfg = s.cfg := rfl
@[simp] theorem raiseResult_result (c : Byte) (s : State) : (raiseResult c s).result = c := rfl
@[simp] theorem raiseResult_doneFlag (c : Byte) (s : State) : (raiseResult c s).doneFlag = true := rfl
@[simp] theorem raiseResult_rx (c : Byte) (s : State) : (raiseResult c s).rx = s.rx := rfl
@[simp] theorem raiseResult_tx (c : Byte) (s : State) : (raiseResult c s).tx = s.tx := rfl
@[simp] theorem raiseResult_hjob (c : Byte) (s : State) : (raiseResult c s).hjob = s.hjob := rfl
@[simp] theorem raiseResult_pjob (c : Byte) (s : State) : (raiseResult c s).pjob = s.pjob := rfl
@[simp] theorem raiseResult_lock (c : Byte) (s : State) : (raiseResult c s).lock = s.lock := rfl
@[simp] theorem raiseResult_de (c : Byte) (s : State) : (raiseResult c s).de = s.de := rfl
@[simp] theorem raiseResult_buf (c : Byte) (s : State) : (raiseResult c s).buf = s.buf := rfl
@[simp] theorem raiseResult_par (c : Byte) (s : State) : (raiseResult c s).par = s.par := rfl
@[simp] theorem raiseResult_inp (c : Byte) (s : State) : (raiseResult c s).inp = s.inp := rfl
@[simp] theorem raiseResult_rxIn (c : Byte) (s : State) : (raiseResult c s).rxIn = s.rxIn := rfl
@[simp] theorem raiseResult_sched (c : Byte) (s : State) : (raiseResult c s).sched = s.sched := rfl
@[simp] theorem raiseResult_obs (c : Byte) (s : State) : (raiseResult c s).obs = s.obs := rfl
@[simp] theorem raiseResult_powerUp (c : Byte) (s : State) : (raiseResult c s).powerUp = s.powerUp := rfl

/-! ## observe -/

@[simp] theorem observe_life (o : Obs) (s : State) : (observe o s).life = s.life := rfl
@[simp] theorem observe_ctrl (o : Obs) (s : State) : (observe o s).ctrl = s.ctrl := rfl
@[simp] theorem observe_station (o : Obs) (s : State) : (observe o s).station = s.station := rfl
@[simp] theorem observe_sohN (o : Obs) (s : State) : (observe o s).sohN = s.sohN := rfl
@[simp] theorem observe_txDest (o : Obs) (s : State) : (observe o s).txDest = s.txDest := rfl
@[simp] theorem observe_txCmd (o : Obs) (s : State) : (observe o s).txCmd = s.txCmd := rfl
@[simp] theorem observe_txLen (o : Obs) (s : State) : (observe o s).txLen = s.txLen := rfl
@[simp] theorem observe_txVal (o : Obs) (s : State) : (observe o s).txVal = s.txVal := rfl
@[simp] theorem observe_cfg (o : Obs) (s : State) : (observe o s).cfg = s.cfg := rfl
@[simp] theorem observe_result (o : Obs) (s : State) : (observe o s).result = s.result := rfl
@[simp] theorem observe_doneFlag (o : Obs) (s : State) : (observe o s).doneFlag = s.doneFlag := rfl
@[simp] theorem observe_rx (o : Obs) (s : State) : (observe o s).rx = s.rx := rfl
@[simp] theorem observe_tx (o : Obs) (s : State) : (observe o s).tx = s.tx := rfl
@[simp] theorem observe_hjob (o : Obs) (s : State) : (observe o s).hjob = s.hjob := rfl
@[simp] theorem observe_pjob (o : Obs) (s : State) : (observe o s).pjob = s.pjob := rfl
@[simp] theorem observe_lock (o : Obs) (s : State) : (observe o s).lock = s.lock := rfl
@[simp] theorem observe_de (o : Obs) (s : State) : (observe o s).de = s.de := rfl
@[simp] theorem observe_buf (o : Obs) (s : State) : (observe o s).buf = s.buf := rfl
@[simp] theorem observe_par (o : Obs) (s : State) : (observe o s).par = s.par := rfl
@[simp] theorem observe_inp (o : Obs) (s : State) : (observe o s).inp = s.inp := rfl
@[simp] theorem observe_rxIn (o : Obs) (s : State) : (observe o s).rxIn = s.rxIn := rfl
@[simp] theorem observe_sched (o : Obs) (s : State) : (observe o s).sched = s.sched := rfl
@[simp] theorem observe_obs (o : Obs) (s : State) : (observe o s).obs = o :: s.obs := rfl
@[simp] theorem observe_powerUp (o : Obs) (s : State) : (observe o s).powerUp = s.powerUp := rfl

/-! ## txPut -/

@[simp] theorem txPut_life (b : Byte) (s : State) : (txPut b s).life = s.life := rfl
@[simp] theorem txPut_ctrl (b : Byte) (s : State) : (txPut b s).ctrl = s.ctrl := rfl
@[simp] theorem txPut_station (b : Byte) (s : State) : (txPut b s).station = s.station := rfl
@[simp] theorem txPut_sohN (b : Byte) (s : State) : (txPut b s).sohN = s.sohN := rfl
@[simp] theorem txPut_txDest (b : Byte) (s : State) : (txPut b s).txDest = s.txDest := rfl
@[simp] theorem txPut_txCmd (b : Byte) (s : State) : (txPut b s).txCmd = s.txCmd := rfl
@[simp] theorem txPut_txLen (b : Byte) (s : State) : (txPut b s).txLen = s.txLen := rfl
@[simp] theorem txPut_txVal (b : Byte) (s : State) : (txPut b s).txVal = s.txVal := rfl
@[simp] theorem txPut_cfg (b : Byte) (s : State) : (txPut b s).cfg = s.cfg := rfl
@[simp] theorem txPut_result (b : Byte) (s : State) : (txPut b s).result = s.result := rfl
@[simp] theorem txPut_doneFlag (b : Byte) (s : State) : (txPut b s).doneFlag = s.doneFlag := rfl
@[simp] theorem txPut_rx (b : Byte) (s : State) : (txPut b s).rx = s.rx := rfl
@[simp] theorem txPut_tx (b : Byte) (s : State) : (txPut b s).tx = s.tx := rfl
@[simp] theorem txPut_hjob (b : Byte) (s : State) : (txPut b s).hjob = s.hjob := rfl
@[simp] theorem txPut_pjob (b : Byte) (s : State) : (txPut b s).pjob = s.pjob := rfl
@[simp] theorem txPut_lock (b : Byte) (s : State) : (txPut b s).lock = s.lock := rfl
@[simp] theorem txPut_de (b : Byte) (s : State) : (txPut b s).de = s.de := rfl
@[simp] theorem txPut_buf (b : Byte) (s : State) : (txPut b s).buf = s.buf := rfl
@[simp] theorem txPut_par (b : Byte) (s : State) : (txPut b s).par = s.par := rfl
@[simp] theorem txPut_inp (b : Byte) (s : State) : (txPut b s).inp = s.inp := rfl
@[simp] theorem txPut_rxIn (b : Byte) (s : State) : (txPut b s).rxIn = s.rxIn := rfl
@[simp] theorem txPut_sched (b : Byte) (s : State) : (txPut b s).sched = s.sched := rfl
@[simp] theorem txPut_obs (b : Byte) (s : State) : (txPut b s).obs = .tx b :: s.obs := rfl
@[simp] theorem txPut_powerUp (b : Byte) (s : State) : (txPut b s).powerUp = s.powerUp := rfl

/-! ## rxTake -/

@[simp] theorem rxTake_life (s : State) : (rxTake s).life = s.life := rfl
@[simp] theorem rxTake_ctrl (s : State) : (rxTake s).ctrl = s.ctrl := rfl
@[simp] theorem rxTake_station (s : State) : (rxTake s).station = s.station := rfl
@[simp] theorem rxTake_sohN (s : State) : (rxTake s).sohN = s.sohN := rfl
@[simp] theorem rxTake_txDest (s : State) : (rxTake s).txDest = s.txDest := rfl
@[simp] theorem rxTake_txCmd (s : State) : (rxTake s).txCmd = s.txCmd := rfl
@[simp] theorem rxTake_txLen (s : State) : (rxTake s).txLen = s.txLen := rfl
@[simp] theorem rxTake_txVal (s : State) : (rxTake s).txVal = s.txVal := rfl
@[simp] theorem rxTake_cfg (s : State) : (rxTake s).cfg = s.cfg := rfl
@[simp] theorem rxTake_result (s : State) : (rxTake s).result = s.result := rfl
@[simp] theorem rxTake_doneFlag (s : State) : (rxTake s).doneFlag = s.doneFlag := rfl
@[simp] theorem rxTake_rx (s : State) : (rxTake s).rx = s.rx := rfl
@[simp] theorem rxTake_tx (s : State) : (rxTake s).tx = s.tx := rfl
@[simp] theorem rxTake_hjob (s : State) : (rxTake s).hjob = s.hjob := rfl
@[simp] theorem rxTake_pjob (s : State) : (rxTake s).pjob = s.pjob := rfl
@[simp] theorem rxTake_lock (s : State) : (rxTake s).lock = s.lock := rfl
@[simp] theorem rxTake_de (s : State) : (rxTake s).de = s.de := rfl
@[simp] theorem rxTake_buf (s : State) : (rxTake s).buf = s.buf := rfl
@[simp] theorem rxTake_par (s : State) : (rxTake s).par = s.par := rfl
@[simp] theorem rxTake_inp (s : State) : (rxTake s).inp = s.inp := rfl
@[simp] theorem rxTake_rxIn (s : State) : (rxTake s).rxIn = s.rxIn.tail := rfl
@[simp] theorem rxTake_sched (s : State) : (rxTake s).sched = s.sched := rfl
@[simp] theorem rxTake_obs (s : State) : (rxTake s).obs = s.obs := rfl
@[simp] theorem rxTake_powerUp (s : State) : (rxTake s).powerUp = s.powerUp := rfl

/-! ## storeTxbuf -/

@[simp] theorem storeTxbuf_life (i : Nat) (v : Byte) (s : State) : (storeTxbuf i v s).life = s.life := rfl
@[simp] theorem storeTxbuf_ctrl (i : Nat) (v : Byte) (s : State) : (storeTxbuf i v s).ctrl = s.ctrl := rfl
@[simp] theorem storeTxbuf_station (i : Nat) (v : Byte) (s : State) : (storeTxbuf i v s).station = s.station := rfl
@[simp] theorem storeTxbuf_sohN (i : Nat) (v : Byte) (s : State) : (storeTxbuf i v s).sohN = s.sohN := rfl
@[simp] theorem storeTxbuf_txDest (i : Nat) (v : Byte) (s : State) : (storeTxbuf i v s).txDest = s.txDest := rfl
@[simp] theorem storeTxbuf_txCmd (i : Nat) (v : Byte) (s : State) : (storeTxbuf i v s).txCmd = s.txCmd := rfl
@[simp] theorem storeTxbuf_txLen (i : Nat) (v : Byte) (s : State) : (storeTxbuf i v s).txLen = s.txLen := rfl
@[simp] theorem storeTxbuf_txVal (i : Nat) (v : Byte) (s : State) : (storeTxbuf i v s).txVal = s.txVal := rfl
@[simp] theorem storeTxbuf_cfg (i : Nat) (v : Byte) (s : State) : (storeTxbuf i v s).cfg = s.cfg := rfl
@[simp] theorem storeTxbuf_result (i : Nat) (v : Byte) (s : State) : (storeTxbuf i v s).result = s.result := rfl
@[simp] theorem storeTxbuf_doneFlag (i : Nat) (v : Byte) (s : State) : (storeTxbuf i v s).doneFlag = s.doneFlag := rfl
@[simp] theorem storeTxbuf_rx (i : Nat) (v : Byte) (s : State) : (storeTxbuf i v s).rx = s.rx := rfl
@[simp] theorem storeTxbuf_tx (i : Nat) (v : Byte) (s : State) : (storeTxbuf i v s).tx = s.tx := rfl
@[simp] theorem storeTxbuf_hjob (i : Nat) (v : Byte) (s : State) : (storeTxbuf i v s).hjob = s.hjob := rfl
@[simp] theorem storeTxbuf_pjob (i : Nat) (v : Byte) (s : State) : (storeTxbuf i v s).pjob = s.pjob := rfl
@[simp] theorem storeTxbuf_lock (i : Nat) (v : Byte) (s : State) : (storeTxbuf i v s).lock = s.lock := rfl
@[simp] theorem storeTxbuf_de (i : Nat) (v : Byte) (s : State) : (storeTxbuf i v s).de = s.de := rfl
@[simp] theorem storeTxbuf_buf (i : Nat) (v : Byte) (s : State) : (storeTxbuf i v s).buf = Memory.store s.buf (txbufBase + i) v := rfl
@[simp] theorem storeTxbuf_par (i : Nat) (v : Byte) (s : State) : (storeTxbuf i v s).par = s.par := rfl
@[simp] theorem storeTxbuf_inp (i : Nat) (v : Byte) (s : State) : (storeTxbuf i v s).inp = s.inp := rfl
@[simp] theorem storeTxbuf_rxIn (i : Nat) (v : Byte) (s : State) : (storeTxbuf i v s).rxIn = s.rxIn := rfl
@[simp] theorem storeTxbuf_sched (i : Nat) (v : Byte) (s : State) : (storeTxbuf i v s).sched = s.sched := rfl
@[simp] theorem storeTxbuf_obs (i : Nat) (v : Byte) (s : State) : (storeTxbuf i v s).obs = s.obs := rfl
@[simp] theorem storeTxbuf_powerUp (i : Nat) (v : Byte) (s : State) : (storeTxbuf i v s).powerUp = s.powerUp := rfl

/-! ## storeRxbuf -/

@[simp] theorem storeRxbuf_life (i : Nat) (v : Byte) (s : State) : (storeRxbuf i v s).life = s.life := rfl
@[simp] theorem storeRxbuf_ctrl (i : Nat) (v : Byte) (s : State) : (storeRxbuf i v s).ctrl = s.ctrl := rfl
@[simp] theorem storeRxbuf_station (i : Nat) (v : Byte) (s : State) : (storeRxbuf i v s).station = s.station := rfl
@[simp] theorem storeRxbuf_sohN (i : Nat) (v : Byte) (s : State) : (storeRxbuf i v s).sohN = s.sohN := rfl
@[simp] theorem storeRxbuf_txDest (i : Nat) (v : Byte) (s : State) : (storeRxbuf i v s).txDest = s.txDest := rfl
@[simp] theorem storeRxbuf_txCmd (i : Nat) (v : Byte) (s : State) : (storeRxbuf i v s).txCmd = s.txCmd := rfl
@[simp] theorem storeRxbuf_txLen (i : Nat) (v : Byte) (s : State) : (storeRxbuf i v s).txLen = s.txLen := rfl
@[simp] theorem storeRxbuf_txVal (i : Nat) (v : Byte) (s : State) : (storeRxbuf i v s).txVal = s.txVal := rfl
@[simp] theorem storeRxbuf_cfg (i : Nat) (v : Byte) (s : State) : (storeRxbuf i v s).cfg = s.cfg := rfl
@[simp] theorem storeRxbuf_result (i : Nat) (v : Byte) (s : State) : (storeRxbuf i v s).result = s.result := rfl
@[simp] theorem storeRxbuf_doneFlag (i : Nat) (v : Byte) (s : State) : (storeRxbuf i v s).doneFlag = s.doneFlag := rfl
@[simp] theorem storeRxbuf_rx (i : Nat) (v : Byte) (s : State) : (storeRxbuf i v s).rx = s.rx := rfl
@[simp] theorem storeRxbuf_tx (i : Nat) (v : Byte) (s : State) : (storeRxbuf i v s).tx = s.tx := rfl
@[simp] theorem storeRxbuf_hjob (i : Nat) (v : Byte) (s : State) : (storeRxbuf i v s).hjob = s.hjob := rfl
@[simp] theorem storeRxbuf_pjob (i : Nat) (v : Byte) (s : State) : (storeRxbuf i v s).pjob = s.pjob := rfl
@[simp] theorem storeRxbuf_lock (i : Nat) (v : Byte) (s : State) : (storeRxbuf i v s).lock = s.lock := rfl
@[simp] theorem storeRxbuf_de (i : Nat) (v : Byte) (s : State) : (storeRxbuf i v s).de = s.de := rfl
@[simp] theorem storeRxbuf_buf (i : Nat) (v : Byte) (s : State) : (storeRxbuf i v s).buf = Memory.store s.buf (rxbufBase + i) v := rfl
@[simp] theorem storeRxbuf_par (i : Nat) (v : Byte) (s : State) : (storeRxbuf i v s).par = s.par := rfl
@[simp] theorem storeRxbuf_inp (i : Nat) (v : Byte) (s : State) : (storeRxbuf i v s).inp = s.inp := rfl
@[simp] theorem storeRxbuf_rxIn (i : Nat) (v : Byte) (s : State) : (storeRxbuf i v s).rxIn = s.rxIn := rfl
@[simp] theorem storeRxbuf_sched (i : Nat) (v : Byte) (s : State) : (storeRxbuf i v s).sched = s.sched := rfl
@[simp] theorem storeRxbuf_obs (i : Nat) (v : Byte) (s : State) : (storeRxbuf i v s).obs = s.obs := rfl
@[simp] theorem storeRxbuf_powerUp (i : Nat) (v : Byte) (s : State) : (storeRxbuf i v s).powerUp = s.powerUp := rfl

/-! ## The observation of the outputs changes `obs` alone -/

@[simp] theorem observeIf_life (c : Bool) (o : Obs) (s : State) : (observeIf c o s).life = s.life := by
  unfold observeIf; split <;> rfl
@[simp] theorem observeIf_ctrl (c : Bool) (o : Obs) (s : State) : (observeIf c o s).ctrl = s.ctrl := by
  unfold observeIf; split <;> rfl
@[simp] theorem observeIf_station (c : Bool) (o : Obs) (s : State) : (observeIf c o s).station = s.station := by
  unfold observeIf; split <;> rfl
@[simp] theorem observeIf_sohN (c : Bool) (o : Obs) (s : State) : (observeIf c o s).sohN = s.sohN := by
  unfold observeIf; split <;> rfl
@[simp] theorem observeIf_txDest (c : Bool) (o : Obs) (s : State) : (observeIf c o s).txDest = s.txDest := by
  unfold observeIf; split <;> rfl
@[simp] theorem observeIf_txCmd (c : Bool) (o : Obs) (s : State) : (observeIf c o s).txCmd = s.txCmd := by
  unfold observeIf; split <;> rfl
@[simp] theorem observeIf_txLen (c : Bool) (o : Obs) (s : State) : (observeIf c o s).txLen = s.txLen := by
  unfold observeIf; split <;> rfl
@[simp] theorem observeIf_txVal (c : Bool) (o : Obs) (s : State) : (observeIf c o s).txVal = s.txVal := by
  unfold observeIf; split <;> rfl
@[simp] theorem observeIf_cfg (c : Bool) (o : Obs) (s : State) : (observeIf c o s).cfg = s.cfg := by
  unfold observeIf; split <;> rfl
@[simp] theorem observeIf_result (c : Bool) (o : Obs) (s : State) : (observeIf c o s).result = s.result := by
  unfold observeIf; split <;> rfl
@[simp] theorem observeIf_doneFlag (c : Bool) (o : Obs) (s : State) : (observeIf c o s).doneFlag = s.doneFlag := by
  unfold observeIf; split <;> rfl
@[simp] theorem observeIf_rx (c : Bool) (o : Obs) (s : State) : (observeIf c o s).rx = s.rx := by
  unfold observeIf; split <;> rfl
@[simp] theorem observeIf_tx (c : Bool) (o : Obs) (s : State) : (observeIf c o s).tx = s.tx := by
  unfold observeIf; split <;> rfl
@[simp] theorem observeIf_hjob (c : Bool) (o : Obs) (s : State) : (observeIf c o s).hjob = s.hjob := by
  unfold observeIf; split <;> rfl
@[simp] theorem observeIf_pjob (c : Bool) (o : Obs) (s : State) : (observeIf c o s).pjob = s.pjob := by
  unfold observeIf; split <;> rfl
@[simp] theorem observeIf_lock (c : Bool) (o : Obs) (s : State) : (observeIf c o s).lock = s.lock := by
  unfold observeIf; split <;> rfl
@[simp] theorem observeIf_de (c : Bool) (o : Obs) (s : State) : (observeIf c o s).de = s.de := by
  unfold observeIf; split <;> rfl
@[simp] theorem observeIf_buf (c : Bool) (o : Obs) (s : State) : (observeIf c o s).buf = s.buf := by
  unfold observeIf; split <;> rfl
@[simp] theorem observeIf_par (c : Bool) (o : Obs) (s : State) : (observeIf c o s).par = s.par := by
  unfold observeIf; split <;> rfl
@[simp] theorem observeIf_inp (c : Bool) (o : Obs) (s : State) : (observeIf c o s).inp = s.inp := by
  unfold observeIf; split <;> rfl
@[simp] theorem observeIf_rxIn (c : Bool) (o : Obs) (s : State) : (observeIf c o s).rxIn = s.rxIn := by
  unfold observeIf; split <;> rfl
@[simp] theorem observeIf_sched (c : Bool) (o : Obs) (s : State) : (observeIf c o s).sched = s.sched := by
  unfold observeIf; split <;> rfl
@[simp] theorem observeIf_powerUp (c : Bool) (o : Obs) (s : State) : (observeIf c o s).powerUp = s.powerUp := by
  unfold observeIf; split <;> rfl

@[simp] theorem observeOutputs_life (s t : State) : (observeOutputs s t).life = t.life := by
  simp [observeOutputs]
@[simp] theorem observeOutputs_ctrl (s t : State) : (observeOutputs s t).ctrl = t.ctrl := by
  simp [observeOutputs]
@[simp] theorem observeOutputs_station (s t : State) : (observeOutputs s t).station = t.station := by
  simp [observeOutputs]
@[simp] theorem observeOutputs_sohN (s t : State) : (observeOutputs s t).sohN = t.sohN := by
  simp [observeOutputs]
@[simp] theorem observeOutputs_txDest (s t : State) : (observeOutputs s t).txDest = t.txDest := by
  simp [observeOutputs]
@[simp] theorem observeOutputs_txCmd (s t : State) : (observeOutputs s t).txCmd = t.txCmd := by
  simp [observeOutputs]
@[simp] theorem observeOutputs_txLen (s t : State) : (observeOutputs s t).txLen = t.txLen := by
  simp [observeOutputs]
@[simp] theorem observeOutputs_txVal (s t : State) : (observeOutputs s t).txVal = t.txVal := by
  simp [observeOutputs]
@[simp] theorem observeOutputs_cfg (s t : State) : (observeOutputs s t).cfg = t.cfg := by
  simp [observeOutputs]
@[simp] theorem observeOutputs_result (s t : State) : (observeOutputs s t).result = t.result := by
  simp [observeOutputs]
@[simp] theorem observeOutputs_doneFlag (s t : State) : (observeOutputs s t).doneFlag = t.doneFlag := by
  simp [observeOutputs]
@[simp] theorem observeOutputs_rx (s t : State) : (observeOutputs s t).rx = t.rx := by
  simp [observeOutputs]
@[simp] theorem observeOutputs_tx (s t : State) : (observeOutputs s t).tx = t.tx := by
  simp [observeOutputs]
@[simp] theorem observeOutputs_hjob (s t : State) : (observeOutputs s t).hjob = t.hjob := by
  simp [observeOutputs]
@[simp] theorem observeOutputs_pjob (s t : State) : (observeOutputs s t).pjob = t.pjob := by
  simp [observeOutputs]
@[simp] theorem observeOutputs_lock (s t : State) : (observeOutputs s t).lock = t.lock := by
  simp [observeOutputs]
@[simp] theorem observeOutputs_de (s t : State) : (observeOutputs s t).de = t.de := by
  simp [observeOutputs]
@[simp] theorem observeOutputs_buf (s t : State) : (observeOutputs s t).buf = t.buf := by
  simp [observeOutputs]
@[simp] theorem observeOutputs_par (s t : State) : (observeOutputs s t).par = t.par := by
  simp [observeOutputs]
@[simp] theorem observeOutputs_inp (s t : State) : (observeOutputs s t).inp = t.inp := by
  simp [observeOutputs]
@[simp] theorem observeOutputs_rxIn (s t : State) : (observeOutputs s t).rxIn = t.rxIn := by
  simp [observeOutputs]
@[simp] theorem observeOutputs_sched (s t : State) : (observeOutputs s t).sched = t.sched := by
  simp [observeOutputs]
@[simp] theorem observeOutputs_powerUp (s t : State) : (observeOutputs s t).powerUp = t.powerUp := by
  simp [observeOutputs]

/-- Observing the outputs changes the observations alone. -/
theorem observeOutputs_eq (s t : State) :
    observeOutputs s t = { t with obs := (observeOutputs s t).obs } := by
  unfold observeOutputs observeIf
  split <;> split <;> split <;> rfl

/-- Observing the outputs adds at most the three events of `irq`, `flush_req` and `de` (R14). -/
theorem observeOutputs_obs (s t : State) :
    (observeOutputs s t).obs =
      (if irqLevel s ≠ irqLevel t then [.irq (irqLevel t)] else []) ++
      (if flushReqLevel s = false ∧ flushReqLevel t = true then [.flushReq] else []) ++
      (if s.de ≠ t.de then [.de t.de] else []) ++ t.obs := by
  unfold observeOutputs observeIf
  cases hs : irqLevel s <;> cases ht : irqLevel t <;> cases fs : flushReqLevel s <;>
    cases ft : flushReqLevel t <;> cases ds : s.de <;> cases dt : t.de <;>
    simp [observe, dt]

end Sys2Proof.Machine
end

