-- ==== Sys2Proof/Laws/Commands.lean ====
section
/-! SUPPORT. For each shared operation of the host's side, one lemma that says everything it can do: the
acceptance of a command, OPEN, CLOSE, SendCommon, the COMMAND write, CTL.CLOSE_DONE and the other writes. -/

namespace Sys2Proof.Machine

@[simp] theorem cmdBusy_iff (s : State) :
    cmdBusy s = true ↔ s.hjob.valid = true ∨ s.life = .closing := by
  simp [cmdBusy]

theorem cmdBusy_false_iff (s : State) :
    cmdBusy s = false ↔ s.hjob.valid = false ∧ s.life ≠ .closing := by
  simp [cmdBusy]

@[simp] theorem framePend_iff (s : State) : framePend s = true ↔ s.rx.phase = .deliver := by
  simp [framePend]

@[simp] theorem flushReqLevel_iff (s : State) : flushReqLevel s = true ↔ s.tx.phase = .flush := by
  simp [flushReqLevel]

theorem acceptCommand_busy (f : State → State) (s : State) (h : cmdBusy s = true) :
    acceptCommand f s = s := by
  simp only [acceptCommand, h, ite_true]

theorem acceptCommand_idle (f : State → State) (s : State) (h : cmdBusy s = false) :
    acceptCommand f s = f { s with doneFlag := false } := by
  simp only [acceptCommand, h, Bool.false_eq_true, ite_false]

theorem unlessBusy_busy (f : State → State) (s : State) (h : cmdBusy s = true) : unlessBusy f s = s := by
  simp only [unlessBusy, h, ite_true]

theorem unlessBusy_idle (f : State → State) (s : State) (h : cmdBusy s = false) : unlessBusy f s = f s := by
  simp only [unlessBusy, h, Bool.false_eq_true, ite_false]

/-- Everything Open() can do (R262): one of three refusals, or the endpoint is opened. -/
theorem openBody_cases (s : State) :
    (s.life = .running ∧ openBody s = raiseResult errState s) ∨
    (s.life ≠ .running ∧ s.sohN = 0x00#8 ∧ openBody s = raiseResult errParam s) ∨
    (s.life ≠ .running ∧ s.sohN ≠ 0x00#8 ∧
      (s.inp.xportOk = false ∨ ctrlDeEn s = true ∧ s.inp.deOk = false) ∧
      openBody s = raiseResult errResource s) ∨
    (s.life ≠ .running ∧ s.sohN ≠ 0x00#8 ∧ s.inp.xportOk = true ∧
      (ctrlDeEn s = true → s.inp.deOk = true) ∧
      openBody s = raiseResult resOk (openEndpoint s)) := by
  unfold openBody
  split
  · left; exact ⟨‹_›, rfl⟩
  · split
    · right; left; exact ⟨‹_›, ‹_›, rfl⟩
    · split
      · right; right; left; exact ⟨‹_›, ‹_›, .inl ‹_›, rfl⟩
      · split
        · right; right; left; exact ⟨‹_›, ‹_›, .inr ‹_›, rfl⟩
        · right; right; right
          rename_i hx hd
          refine ⟨‹_›, ‹_›, by simpa using hx, fun he => ?_, rfl⟩
          simpa [he] using hd

/-- Everything Close() can do (R263): a refusal, or the endpoint begins to close, a partial frame abandoned. -/
theorem closeBody_cases (s : State) :
    (s.life ≠ .running ∧ closeBody s = raiseResult errState s) ∨
    (s.life = .running ∧ s.rx.phase.abandonedByClose = true ∧
      closeBody s = beginClose (abandonFrame s)) ∨
    (s.life = .running ∧ s.rx.phase.abandonedByClose = false ∧ closeBody s = beginClose s) := by
  unfold closeBody
  split
  · left; exact ⟨‹_›, rfl⟩
  · right
    split
    · left; exact ⟨by simpa using ‹¬ s.life ≠ .running›, ‹_›, rfl⟩
    · right; exact ⟨by simpa using ‹¬ s.life ≠ .running›, by simpa using ‹¬ _ = true›, rfl⟩

/-- Everything SendCommon can do (R210): one of three refusals, or the host job is created. -/
theorem sendCommon_cases (k : JobKind) (b : Bool) (len : Option Byte) (s : State) :
    (s.life ≠ .running ∧ sendCommon k b len s = raiseResult errNotOpen s) ∨
    (s.life = .running ∧ s.txCmd = cmdCatchall ∧ sendCommon k b len s = raiseResult errCmd s) ∨
    (s.life = .running ∧ s.txCmd ≠ cmdCatchall ∧ len = none ∧ sendCommon k b len s = raiseResult errLen s) ∨
    (s.life = .running ∧ s.txCmd ≠ cmdCatchall ∧ ∃ l, len = some l ∧
      sendCommon k b len s = acceptSend k b l s) := by
  unfold sendCommon
  split
  · left; exact ⟨‹_›, rfl⟩
  · have hl : s.life = .running := by simpa using ‹¬ s.life ≠ .running›
    right
    split
    · left; exact ⟨hl, ‹_›, rfl⟩
    · right
      cases len with
      | none => left; exact ⟨hl, ‹_›, rfl, rfl⟩
      | some l => right; exact ⟨hl, ‹_›, l, rfl, rfl⟩

/-- A typed send's length is its width (R213 to R215). -/
abbrev TypedLen (k : JobKind) (l : Byte) : Prop :=
  (k = .i8 → l = 1#8) ∧ (k = .i16 → l = 2#8) ∧ (k = .i32 → l = 4#8)

/-- Everything an accepted COMMAND byte can do (R261): a result and nothing else, a successful OPEN, an accepted
CLOSE, or an accepted send. -/
theorem commandBody_cases (v : Byte) (s : State) :
    (∃ c : Byte, c.toNat ≤ 7 ∧ commandBody v s = raiseResult c s) ∨
    (v = 0x01#8 ∧ s.life ≠ .running ∧ s.sohN ≠ 0x00#8 ∧ s.inp.xportOk = true ∧
      (ctrlDeEn s = true → s.inp.deOk = true) ∧
      commandBody v s = raiseResult resOk (openEndpoint s)) ∨
    (v = 0x02#8 ∧ s.life = .running ∧
      ((s.rx.phase.abandonedByClose = true ∧ commandBody v s = beginClose (abandonFrame s)) ∨
        (s.rx.phase.abandonedByClose = false ∧ commandBody v s = beginClose s))) ∨
    (s.life = .running ∧ s.txCmd ≠ cmdCatchall ∧ ∃ k b l, TypedLen k l ∧ commandBody v s = acceptSend k b l s) := by
  have send : ∀ k b len, (∀ l, len = some l → TypedLen k l) → commandBody v s = sendCommon k b len s →
      (∃ c : Byte, c.toNat ≤ 7 ∧ commandBody v s = raiseResult c s) ∨
      (s.life = .running ∧ s.txCmd ≠ cmdCatchall ∧ ∃ k b l, TypedLen k l ∧
        commandBody v s = acceptSend k b l s) := by
    intro k b len hl he
    rw [he]
    rcases sendCommon_cases k b len s with ⟨-, h⟩ | ⟨-, -, h⟩ | ⟨-, -, -, h⟩ | ⟨hr, hc, l, hs, h⟩
    · exact .inl ⟨errNotOpen, by decide, h⟩
    · exact .inl ⟨errCmd, by decide, h⟩
    · exact .inl ⟨errLen, by decide, h⟩
    · exact .inr ⟨hr, hc, k, b, l, hl l hs, h⟩
  have value : ∀ i v', encode i = .command v' → decodeCommand v = .ok i → v = v' := by
    intro i v' hi hv
    have key : ∀ w : Byte, decodeCommand w = .ok i → encode i = .command w := by
      cases i <;> simp only [encode] at hi ⊢ <;> first | decide | (exact absurd hi (by simp))
    have := key v hv
    rw [hi] at this
    injection this with h
    exact h.symm
  cases hd : decodeCommand v with
  | error e => exact .inl ⟨errIllegal, by decide, by simp only [commandBody, hd]⟩
  | ok i =>
    cases i with
    | cmdOpen =>
      have hv := value .cmdOpen 0x01#8 rfl hd
      have he : commandBody v s = openBody s := by simp only [commandBody, hd]
      rw [he]
      rcases openBody_cases s with ⟨-, h⟩ | ⟨-, -, h⟩ | ⟨-, -, -, h⟩ | ⟨h1, h2, h3, h4, h⟩
      · exact .inl ⟨errState, by decide, h⟩
      · exact .inl ⟨errParam, by decide, h⟩
      · exact .inl ⟨errResource, by decide, h⟩
      · exact .inr (.inl ⟨hv, h1, h2, h3, h4, h⟩)
    | cmdClose =>
      have hv := value .cmdClose 0x02#8 rfl hd
      have he : commandBody v s = closeBody s := by simp only [commandBody, hd]
      rw [he]
      rcases closeBody_cases s with ⟨-, h⟩ | ⟨h1, h2, h⟩ | ⟨h1, h2, h⟩
      · exact .inl ⟨errState, by decide, h⟩
      · exact .inr (.inr (.inl ⟨hv, h1, .inl ⟨h2, h⟩⟩))
      · exact .inr (.inr (.inl ⟨hv, h1, .inr ⟨h2, h⟩⟩))
    | sendRaw => exact (send .raw false (rawLen s) (by simp [TypedLen]) (by simp only [commandBody, hd]; rfl)).imp_right (.inr ∘ .inr)
    | sendStr => exact (send .str false (strLen s) (by simp [TypedLen]) (by simp only [commandBody, hd]; rfl)).imp_right (.inr ∘ .inr)
    | sendI8 => exact (send .i8 false (some 1#8) (by simp [TypedLen]) (by simp only [commandBody, hd]; rfl)).imp_right (.inr ∘ .inr)
    | sendI16 => exact (send .i16 false (some 2#8) (by simp [TypedLen]) (by simp only [commandBody, hd]; rfl)).imp_right (.inr ∘ .inr)
    | sendI32 => exact (send .i32 false (some 4#8) (by simp [TypedLen]) (by simp only [commandBody, hd]; rfl)).imp_right (.inr ∘ .inr)
    | bsendRaw => exact (send .raw true (rawLen s) (by simp [TypedLen]) (by simp only [commandBody, hd]; rfl)).imp_right (.inr ∘ .inr)
    | bsendStr => exact (send .str true (strLen s) (by simp [TypedLen]) (by simp only [commandBody, hd]; rfl)).imp_right (.inr ∘ .inr)
    | bsendI8 => exact (send .i8 true (some 1#8) (by simp [TypedLen]) (by simp only [commandBody, hd]; rfl)).imp_right (.inr ∘ .inr)
    | bsendI16 => exact (send .i16 true (some 2#8) (by simp [TypedLen]) (by simp only [commandBody, hd]; rfl)).imp_right (.inr ∘ .inr)
    | bsendI32 => exact (send .i32 true (some 4#8) (by simp [TypedLen]) (by simp only [commandBody, hd]; rfl)).imp_right (.inr ∘ .inr)
    | _ => exact .inl ⟨errIllegal, by decide, by simp only [commandBody, hd]⟩

/-- Everything CTL.CLOSE_DONE can do (R264). -/
theorem closeDone_cases (s : State) :
    closeDone s = s ∨
    (s.life = .closing ∧ s.rx.phase = .seek ∧ s.lock = .none ∧ s.pjob.valid = false ∧ s.tx.phase = .idle ∧
      closeDone s = raiseResult resOk { s with life := .stopped, de := false }) := by
  unfold closeDone
  split
  · rename_i h
    simp only [closeDoneEnabled, Bool.and_eq_true, beq_iff_eq, Bool.not_eq_true'] at h
    obtain ⟨⟨⟨⟨h1, h2⟩, h3⟩, h4⟩, h5⟩ := h
    exact .inr ⟨h1, h2, h3, h4, h5, rfl⟩
  · exact .inl rfl

/-- Everything a STATUS write can do (R265). -/
theorem statusWrite_cases (v : Byte) (s : State) :
    statusWrite v s = s ∨ (v.getLsbD 3 = true ∧ statusWrite v s = { s with doneFlag := false }) := by
  unfold statusWrite
  split
  · exact .inr ⟨‹_›, rfl⟩
  · exact .inl rfl

/-- Everything a FRAME_ACK write can do (R179). -/
theorem frameAckWrite_cases (s : State) :
    (s.rx.phase ≠ .deliver ∧ frameAckWrite s = s) ∨
    (s.rx.phase = .deliver ∧
      frameAckWrite s = { s with rx := { s.rx with wcnt := 0#3, phase := .seek } }) := by
  unfold frameAckWrite
  split
  · rename_i h
    exact .inr ⟨(framePend_iff s).1 h, rfl⟩
  · rename_i h
    exact .inl ⟨fun hp => h ((framePend_iff s).2 hp), rfl⟩

/-- The parameters a staging write can change: everything else is kept. -/
structure SameButStaging (s t : State) : Prop where
  rest : t = { s with
    ctrl := t.ctrl, station := t.station, sohN := t.sohN, txDest := t.txDest, txCmd := t.txCmd,
    txLen := t.txLen, txVal := t.txVal }
  ctrlKept : ctrlDefined s.ctrl = s.ctrl → ctrlDefined t.ctrl = t.ctrl

/-- Everything a host write can do (R266): a COMMAND, STATUS or FRAME_ACK write, a TXBUF byte while not busy, or
a staging register. -/
theorem hostWrite_cases (a : Addr) (v : Byte) (s : State) :
    (target a = .command ∧ hostWrite a v s = commandWrite v s) ∨
    (target a = .status ∧ hostWrite a v s = statusWrite v s) ∨
    (target a = .frameAck ∧ hostWrite a v s = frameAckWrite s) ∨
    (∃ i, target a = .txbuf i ∧ cmdBusy s = false ∧ hostWrite a v s = storeTxbuf i.toNat v s) ∨
    SameButStaging s (hostWrite a v s) := by
  have keep : SameButStaging s s := ⟨rfl, id⟩
  have busy : ∀ f : State → State, SameButStaging s (f s) → SameButStaging s (unlessBusy f s) := by
    intro f hf
    unfold unlessBusy
    split
    · exact keep
    · exact hf
  unfold hostWrite
  split
  case h_1 =>
    refine .inr (.inr (.inr (.inr ⟨rfl, fun _ => ?_⟩)))
    simp only [ctrlDefined]
    rw [BitVec.and_assoc, BitVec.and_self]
  case h_4 h => exact .inl ⟨h, rfl⟩
  case h_5 h => exact .inr (.inl ⟨h, rfl⟩)
  case h_14 h => exact .inr (.inr (.inl ⟨h, rfl⟩))
  case h_15 i h =>
    cases hb : cmdBusy s with
    | true => rw [unlessBusy_busy _ _ hb]; exact .inr (.inr (.inr (.inr keep)))
    | false => exact .inr (.inr (.inr (.inl ⟨i, h, rfl, unlessBusy_idle _ _ hb⟩)))
  all_goals first
    | exact .inr (.inr (.inr (.inr keep)))
    | exact .inr (.inr (.inr (.inr (busy _ ⟨rfl, id⟩))))
    | exact .inr (.inr (.inr (.inr ⟨rfl, id⟩)))

/-- Every meaning answers a next state: the block has no fault state and refuses nothing (R269, R320). -/
theorem exec_answers (i : Instr) (s : State) : ∃ t, exec i s = .next t := by
  cases i <;> exact ⟨_, rfl⟩

end Sys2Proof.Machine
end

