-- ==== Sys2Proof/Laws/Fields.lean ====
section
/-! SUPPORT. The fields of a bus word that is put together from its fields (R100), and of a COMMAND byte (R95). -/

namespace Sys2Proof

theorem busA_append (h : BitVec 2) (a : Addr) (d : Byte) : busA ((h ++ a) ++ d) = a := by
  change @BitVec.extractLsb' (2 + 12 + 8) 8 12 ((h ++ a) ++ d) = a
  apply BitVec.eq_of_getLsbD_eq
  intro i hi
  have h1 : ¬ (8 + i < 8) := by omega
  have h2 : 8 + i - 8 = i := by omega
  rw [BitVec.getLsbD_extractLsb', BitVec.getLsbD_append, BitVec.getLsbD_append, h2]
  simp only [hi, h1, decide_true, Bool.true_and, ite_true, ite_false]

theorem busD_append (h : BitVec 2) (a : Addr) (d : Byte) : busD ((h ++ a) ++ d) = d := by
  change @BitVec.extractLsb' (2 + 12 + 8) 0 8 ((h ++ a) ++ d) = d
  apply BitVec.eq_of_getLsbD_eq
  intro i hi
  rw [BitVec.getLsbD_extractLsb', BitVec.getLsbD_append, Nat.zero_add]
  simp only [hi, decide_true, Bool.true_and, ite_true]

theorem busW_append (h : BitVec 2) (a : Addr) (d : Byte) : busW ((h ++ a) ++ d) = h.getLsbD 1 := by
  change @BitVec.getLsbD (2 + 12 + 8) ((h ++ a) ++ d) 21 = _
  rw [BitVec.getLsbD_append, BitVec.getLsbD_append]
  rfl

theorem busR_append (h : BitVec 2) (a : Addr) (d : Byte) : busR ((h ++ a) ++ d) = h.getLsbD 0 := by
  change @BitVec.getLsbD (2 + 12 + 8) ((h ++ a) ++ d) 20 = _
  rw [BitVec.getLsbD_append, BitVec.getLsbD_append]
  rfl

/-- A bus word decodes by its fields (R100). -/
theorem decodeBus_append (h : BitVec 2) (a : Addr) (d : Byte) :
    decodeBus ((h ++ a) ++ d) =
      match h.getLsbD 1, h.getLsbD 0 with
      | true, false => .ok (decodeWrite a d)
      | false, true => if d = 0#8 then .ok (.rd a) else .error .readWithData
      | true, true => .error .noAccess
      | false, false => .error .noAccess := by
  unfold decodeBus
  cases h1 : h.getLsbD 1 <;> cases h0 : h.getLsbD 0 <;>
    simp only [busW_append, busR_append, busA_append, busD_append, h1, h0]

end Sys2Proof
end

