-- ==== Sys2Proof/Laws/PerInstr.lean ====
section
/-! SUPPORT. The family EncodeFits of statements about every instruction as syntax: its encoding is a word of the
space and of the rows that the tables of R96, R98 and R100 give it. -/

namespace Sys2Proof.Laws.EncodeFits

/-- A word that is legal in its space: one of the twelve COMMAND bytes (R97), a bus word with exactly one of W and R
and no data in a read (R100), or one of the six reserved command codes (R98). -/
def legalWord : Encoded → Bool
  | .command b => (1 ≤ b.toNat && b.toNat ≤ 7) || (0x13 ≤ b.toNat && b.toNat ≤ 0x17)
  | .bus w => (busW w != busR w) && (!busR w || busD w == 0x00#8)
  | .frameCmd b => (5 ≤ b.toNat && b.toNat ≤ 9) || b.toNat == 0xFF

/-- The word of `i` is legal in its space. -/
def Statement (i : Instr) : Prop := legalWord (encode i) = true

/-- The bus word of a write has W = 1 and R = 0. -/
theorem write_word (a : Addr) (d : Byte) : legalWord (.bus (writeWord a d)) = true := by
  unfold writeWord
  simp only [legalWord, busW_append, busR_append]
  rfl

/-- The bus word of a read has W = 0, R = 1 and D = 0. -/
theorem read_word (a : Addr) : legalWord (.bus (readWord a)) = true := by
  unfold readWord
  simp only [legalWord, busW_append, busR_append, busD_append]
  rfl

theorem cmdOpen : Statement .cmdOpen := rfl
theorem cmdClose : Statement .cmdClose := rfl
theorem sendRaw : Statement .sendRaw := rfl
theorem sendStr : Statement .sendStr := rfl
theorem sendI8 : Statement .sendI8 := rfl
theorem sendI16 : Statement .sendI16 := rfl
theorem sendI32 : Statement .sendI32 := rfl
theorem bsendRaw : Statement .bsendRaw := rfl
theorem bsendStr : Statement .bsendStr := rfl
theorem bsendI8 : Statement .bsendI8 := rfl
theorem bsendI16 : Statement .bsendI16 := rfl
theorem bsendI32 : Statement .bsendI32 := rfl
theorem wr (a : Addr) (d : Byte) : Statement (.wr a d) := write_word a d
theorem rd (a : Addr) : Statement (.rd a) := read_word a
theorem wrCommand (c : Byte) : Statement (.wrCommand c) := write_word _ c
theorem wrStatus (d : Byte) : Statement (.wrStatus d) := write_word _ d
theorem wrFrameAck (d : Byte) : Statement (.wrFrameAck d) := write_word _ d
theorem ping : Statement .ping := rfl
theorem pong : Statement .pong := rfl
theorem qstat : Statement .qstat := rfl
theorem rstat : Statement .rstat := rfl
theorem relay : Statement .relay := rfl
theorem catchall : Statement .catchall := rfl

end Sys2Proof.Laws.EncodeFits
end

