-- ==== Sys2Proof/Laws/Turns.lean ====
section
/-! SUPPORT. For each agent, one lemma that says everything its turn can do, and the same for a step. -/

namespace Sys2Proof.Machine

/-! ## RXF -/

/-- Dispatch() in one equation: a PING is answered first, every other frame is delivered (R173). -/
theorem dispatch_eq (s : State) :
    dispatch s = .next (if s.rx.hCmd = cmdPing then queuePong s else deliverFrame s) := by
  unfold dispatch decodeFrameCmd
  by_cases h0 : s.rx.hCmd = cmdPing
  · simp only [h0, ite_true]; rfl
  by_cases h1 : s.rx.hCmd = cmdPong
  · simp only [h1]; rfl
  by_cases h2 : s.rx.hCmd = cmdQstat
  · simp only [h2]; rfl
  by_cases h3 : s.rx.hCmd = cmdRstat
  · simp only [h3]; rfl
  by_cases h4 : s.rx.hCmd = cmdRelay
  · simp only [h4]; rfl
  by_cases h5 : s.rx.hCmd = cmdCatchall
  · simp only [h5]; rfl
  simp only [h0, h1, h2, h3, h4, h5, ite_false]; rfl

/-- What the receiver does with a byte `b` it takes: the cases of R163 to R173. `u` is the state without `b`. -/
inductive RxByteResult (b : Byte) (u : State) : State → Prop
  | discard (hp : u.rx.phase = .seek) (hl : u.life ≠ .running) : RxByteResult b u u
  | header (hp : u.rx.phase = .seek) (hl : u.life = .running)
      (hm : headerMatch u.par u.rx.win u.rx.wcnt b = true) : RxByteResult b u (rxHeader u)
  | shift (hp : u.rx.phase = .seek) (hl : u.life = .running)
      (hm : headerMatch u.par u.rx.win u.rx.wcnt b = false) : RxByteResult b u (rxShift b u)
  | collect (hp : u.rx.phase = .collect) (hc : u.rx.cursor ≠ 0xFF#8) :
      RxByteResult b u (storeRxbuf u.rx.cursor.toNat b
        { u with rx := { u.rx with
            acc := u.rx.acc + b, cursor := u.rx.cursor + 1#8, idle := 0#32
            phase := if u.rx.cursor + 1#8 = u.rx.hLen then .chkEtx else .collect } })
  | etxOk (hp : u.rx.phase = .chkEtx) (hb : b = u.par.etx) :
      RxByteResult b u { u with rx := { u.rx with idle := 0#32, phase := .readChk } }
  | etxBad (hp : u.rx.phase = .chkEtx) (hb : b ≠ u.par.etx) :
      RxByteResult b u (rxRestart { u with lock := .none, rx := { u.rx with idle := 0#32 } })
  | readChk (hp : u.rx.phase = .readChk) : RxByteResult b u (rxReadChecksum b u)
  | eotPing (hp : u.rx.phase = .chkEot) (hb : b = u.par.eot) (ht : u.rx.trl = u.rx.acc)
      (hc : u.rx.hCmd = cmdPing) : RxByteResult b u (queuePong (rxRelease u))
  | eotDeliver (hp : u.rx.phase = .chkEot) (hb : b = u.par.eot) (ht : u.rx.trl = u.rx.acc)
      (hc : u.rx.hCmd ≠ cmdPing) : RxByteResult b u (deliverFrame (rxRelease u))
  | eotBad (hp : u.rx.phase = .chkEot) (hb : ¬ (b = u.par.eot ∧ u.rx.trl = u.rx.acc)) :
      RxByteResult b u (rxRestart (rxRelease u))

/-- Everything a byte step of the receiver can do. -/
theorem rxByteStep_cases (b : Byte) (u t : State) (hr : u.rx.phase.takesBytes = true)
    (h : rxByteStep b u = .next t) : RxByteResult b u t := by
  unfold rxByteStep at h
  cases hp : u.rx.phase <;> rw [hp] at h hr <;> simp only [RxPhase.takesBytes, Bool.false_eq_true] at hr
  case seek =>
    injection h with h; subst h
    unfold rxSeek
    split
    · exact .discard hp ‹_›
    · have hl : u.life = .running := by simpa using ‹¬ u.life ≠ .running›
      split
      · exact .header hp hl ‹_›
      · exact .shift hp hl (by simpa using ‹¬ _ = true›)
  case collect =>
    simp only [rxCollect] at h
    split at h
    · cases h
    · injection h with h; subst h
      exact .collect hp ‹_›
  case chkEtx =>
    injection h with h; subst h
    unfold rxCheckEtx
    split
    · exact .etxOk hp ‹_›
    · exact .etxBad hp ‹_›
  case readChk =>
    injection h with h; subst h
    exact .readChk hp
  case chkEot =>
    simp only [rxCheckEot] at h
    split at h
    · rename_i hv
      simp only [trailerValid, Bool.and_eq_true, beq_iff_eq] at hv
      rw [dispatch_eq] at h
      injection h with h; subst h
      split
      · exact .eotPing hp hv.1 hv.2 ‹_›
      · exact .eotDeliver hp hv.1 hv.2 ‹_›
    · rename_i hv
      injection h with h; subst h
      refine .eotBad hp fun hb => hv ?_
      simp [trailerValid, hb.1, hb.2]

/-- Everything a turn of the receiver can do. -/
theorem rxfTurn_cases (s t : State) (h : rxfTurn s = .next t) :
    t = s ∨
    (s.rx.phase = .waitLock ∧ s.lock = .none ∧ t = rxGrant s) ∨
    (∃ b q, s.rxIn = b :: q ∧ s.rx.phase.takesBytes = true ∧ RxByteResult b (rxTake s) t) := by
  unfold rxfTurn at h
  split at h
  · rename_i hr
    cases hq : s.rxIn with
    | nil => rw [hq] at h; injection h with h; exact .inl h.symm
    | cons b q =>
      rw [hq] at h
      exact .inr (.inr ⟨b, q, rfl, hr, rxByteStep_cases b (rxTake s) t hr h⟩)
  · injection h with h; subst h
    unfold rxWaitLock
    split
    · rename_i hg
      simp only [grantRx, Bool.and_eq_true, beq_iff_eq] at hg
      exact .inr (.inl ⟨hg.1, hg.2, rfl⟩)
    · exact .inl rfl

/-! ## TXE -/

/-- What a step of the transmit engine does when it is enabled: the cases of R222 to R233. -/
inductive TxResult (s : State) : State → Prop
  | grantPong (hp : s.tx.phase = .idle) (hl : s.lock = .none) (hj : s.pjob.valid = true)
      (hr : s.rx.phase ≠ .waitLock) : TxResult s (txStart .txp s)
  | grantHost (hp : s.tx.phase = .idle) (hl : s.lock = .none) (hj : s.hjob.valid = true)
      (hq : s.pjob.valid = false) (hr : s.rx.phase ≠ .waitLock) : TxResult s (txStart .txh s)
  | soh (hp : s.tx.phase = .soh) : TxResult s (txSohStep s)
  | dest (hp : s.tx.phase = .dest) (j : Job) (hj : currentJob s = some j) : TxResult s (txDestStep j s)
  | orig (hp : s.tx.phase = .orig) (j : Job) (hj : currentJob s = some j) : TxResult s (txOrigStep j s)
  | cmd (hp : s.tx.phase = .cmd) (j : Job) (hj : currentJob s = some j) : TxResult s (txCmdStep j s)
  | len (hp : s.tx.phase = .len) (j : Job) (hj : currentJob s = some j) : TxResult s (txLenStep j s)
  | stx (hp : s.tx.phase = .stx) (j : Job) (hj : currentJob s = some j) : TxResult s (txStxStep j s)
  | payload (hp : s.tx.phase = .payload) (j : Job) (hj : currentJob s = some j) (b : Byte)
      (hb : payloadByte s s.tx.idx.toNat = some b) : TxResult s (txPayloadSend j b s)
  | etx (hp : s.tx.phase = .etx) : TxResult s (txEtxStep s)
  | chk (hp : s.tx.phase = .chk) : TxResult s (txChkStep s)
  | eot (hp : s.tx.phase = .eot) : TxResult s (txEotStep s)
  | flushHost (hp : s.tx.phase = .flush) (hf : s.inp.flushDone = true) (hl : s.lock = .txh) :
      TxResult s (finishHostJob { s with de := false, tx := { s.tx with phase := .idle } })
  | flushPong (hp : s.tx.phase = .flush) (hf : s.inp.flushDone = true) (hl : s.lock ≠ .txh) :
      TxResult s (finishPongJob { s with de := false, tx := { s.tx with phase := .idle } })

theorem withJob_cases (f : Job → State) (s t : State) (h : withJob f s = .next t) :
    ∃ j, currentJob s = some j ∧ t = f j := by
  unfold withJob at h
  split at h
  · injection h with h; exact ⟨_, ‹_›, h.symm⟩
  · cases h

/-- Everything a turn of the transmit engine can do. -/
theorem txeTurn_cases (s t : State) (h : txeTurn s = .next t) : t = s ∨ TxResult s t := by
  unfold txeTurn at h
  split at h
  · rename_i hp
    injection h with h; subst h
    unfold txGrant
    split
    · rename_i hg
      simp only [grantTxp, Bool.and_eq_true, beq_iff_eq, bne_iff_ne] at hg
      exact .inr (.grantPong hp hg.1.1.1 hg.1.2 hg.2)
    · split
      · rename_i hg
        simp only [grantTxh, Bool.and_eq_true, beq_iff_eq, bne_iff_ne, Bool.not_eq_true'] at hg
        exact .inr (.grantHost hp hg.1.1.1.1 hg.1.1.2 hg.1.2 hg.2)
      · exact .inl rfl
  · split at h
    · rename_i hp
      injection h with h; subst h
      split
      · unfold txFlushDone
        split
        · exact .inr (.flushHost hp ‹_› ‹_›)
        · exact .inr (.flushPong hp ‹_› ‹_›)
      · exact .inl rfl
    · split at h
      · unfold txByteStep at h
        cases hp : s.tx.phase <;> rw [hp] at h
        case idle => exact absurd hp ‹_›
        case flush => exact absurd hp ‹_›
        case soh => injection h with h; subst h; exact .inr (.soh hp)
        case dest => obtain ⟨j, hj, rfl⟩ := withJob_cases _ _ _ h; exact .inr (.dest hp j hj)
        case orig => obtain ⟨j, hj, rfl⟩ := withJob_cases _ _ _ h; exact .inr (.orig hp j hj)
        case cmd => obtain ⟨j, hj, rfl⟩ := withJob_cases _ _ _ h; exact .inr (.cmd hp j hj)
        case len => obtain ⟨j, hj, rfl⟩ := withJob_cases _ _ _ h; exact .inr (.len hp j hj)
        case stx => obtain ⟨j, hj, rfl⟩ := withJob_cases _ _ _ h; exact .inr (.stx hp j hj)
        case payload =>
          simp only [txPayloadStep] at h
          split at h
          · cases h
          · split at h
            · cases h
            · injection h with h; subst h; exact .inr (.payload hp _ ‹_› _ ‹_›)
        case etx => injection h with h; subst h; exact .inr (.etx hp)
        case chk => injection h with h; subst h; exact .inr (.chk hp)
        case eot => injection h with h; subst h; exact .inr (.eot hp)
      · injection h with h; exact .inl h.symm

/-! ## HOST, TMR and the step -/

/-- A bus cycle is a write, a read, or no access (R80). -/
theorem hostTurn_eq (c : HostCycle) (s : State) :
    hostTurn c s =
      if c.we = true ∧ c.re = false then .next (hostWrite c.addr c.wdata s)
      else if c.we = false ∧ c.re = true then .next (observe (.read (hostRead c.addr s)) s)
      else .next s := by
  obtain ⟨we, re, a, d⟩ := c
  have hw : decodeBus (busWord ⟨we, re, a, d⟩) = _ :=
    decodeBus_append (BitVec.ofBool we ++ BitVec.ofBool re) a (if we then d else 0x00#8)
  unfold hostTurn
  rw [hw]
  cases we <;> cases re
  · rfl
  · rfl
  · change exec (decodeWrite a d) s = .next (hostWrite a d s)
    unfold decodeWrite
    split
    · rename_i h; subst h; rfl
    · split
      · rename_i h; subst h; rfl
      · split
        · rename_i h; subst h; rfl
        · rfl
  · rfl

/-- Everything the environment can do: the inputs and the offered bytes change, and nothing else (R51). -/
theorem envTurn_frame (e : EnvEvent) (s : State) :
    envTurn e s = { s with inp := (envTurn e s).inp, rxIn := (envTurn e s).rxIn } := by
  cases e <;> rfl

/-- Everything the idle counter's cycle can do (R333). -/
theorem idleTick_frame (s : State) :
    idleTick s = { s with rx := { s.rx with idle := (idleTick s).rx.idle } } := by
  unfold idleTick
  split <;> rfl

/-- Everything RX.IDLE_ABORT can do (R180). -/
theorem idleAbort_cases (s : State) :
    idleAbort s = s ∨
    (s.rx.phase.holdsLock = true ∧ s.par.tRxIdle ≠ 0#32 ∧ s.par.tRxIdle ≤ s.rx.idle ∧
      idleAbort s = rxRestart { s with lock := .none, rx := { s.rx with idle := 0#32 } }) := by
  unfold idleAbort
  split
  · rename_i h
    simp only [idleAbortEnabled, Bool.and_eq_true, bne_iff_ne, decide_eq_true_eq] at h
    exact .inr ⟨h.1.2, h.1.1, h.2, rfl⟩
  · exact .inl rfl

/-- Everything a step can do: nothing, with no turn to come, or the next turn and the observation of its
outputs (R12). -/
theorem step_cases (s t : State) (h : step s = .next t) :
    s.par.Distinct ∧
    ((s.sched = [] ∧ t = s) ∨
      ∃ turn rest u, s.sched = turn :: rest ∧ takeTurn turn { s with sched := rest } = .next u ∧
        t = observeOutputs s u) := by
  unfold step guardedTurn at h
  split at h
  · rename_i hd
    refine ⟨hd, ?_⟩
    unfold runTurn at h
    cases hs : s.sched with
    | nil =>
      rw [hs] at h
      injection h with h
      exact .inl ⟨rfl, h.symm⟩
    | cons turn rest =>
      rw [hs] at h
      simp only at h
      cases hu : takeTurn turn { s with sched := rest } with
      | next u =>
        rw [hu] at h
        injection h with h
        exact .inr ⟨turn, rest, u, rfl, hu, h.symm⟩
      | fault r => rw [hu] at h; cases h
      | refused r => rw [hu] at h; cases h
  · cases h

/-- A step of a machine whose next turn answers `u`. -/
theorem step_of_turn (s u : State) (turn : Turn) (rest : List Turn) (hd : s.par.Distinct)
    (hs : s.sched = turn :: rest) (hu : takeTurn turn { s with sched := rest } = .next u) :
    step s = .next (observeOutputs s u) := by
  have hr : runTurn s = .next (observeOutputs s u) := by
    simp only [runTurn, hs, hu, mapNext]
  exact (if_pos hd).trans hr

end Sys2Proof.Machine
end

