-- ==== Sys2Proof/Machine/Listing.lean ====
section
/-! DEFINITION. Listings (R100 to R102): a listing line as data, the turns of HOST and ENV it stands for, and
the expansion of each pseudo-instruction. The text form of a line is notation and is not parsed, log 22. -/

namespace Sys2Proof.Machine

/-- One listing line (R101). -/
inductive Line
  /-- `WR a, b`. -/
  | wr (a : Addr) (b : Byte)
  /-- `RD a [-> b]`: the optional byte is the value the rules give. -/
  | rd (a : Addr) (expected : Option Byte)
  /-- `ENV.RX bytes`: the listed bytes are offered in order. -/
  | envRx (bs : List Byte)
  /-- `ENV.TX bytes`: the bytes the rules give on the transmit stream; it moves no agent. -/
  | envTx (bs : List Byte)
  /-- `ENV.SET xport_ok=l`. -/
  | envSetXport (l : Bool)
  /-- `ENV.SET de_ok=l`. -/
  | envSetDe (l : Bool)
  deriving DecidableEq, Repr

/-- The bus cycle of a host write (R80). -/
def writeCycle (a : Addr) (b : Byte) : HostCycle := ⟨true, false, a, b⟩

/-- The bus cycle of a host read (R80). -/
def readCycle (a : Addr) : HostCycle := ⟨false, true, a, 0x00#8⟩

/-- The turns a line stands for (R101). -/
def Line.turns : Line → List Turn
  | .wr a b => [.host (writeCycle a b)]
  | .rd a _ => [.host (readCycle a)]
  | .envRx bs => bs.map (fun b => .env (.offer b))
  | .envTx _ => []
  | .envSetXport l => [.env (.xportOk l)]
  | .envSetDe l => [.env (.deOk l)]

/-- A pseudo-instruction (R102). `broadcast` chooses the B form. -/
inductive Pseudo
  | open_ (s n d : Byte)
  | close
  | send (d c : Byte) (bs : List Byte)
  | bsend (c : Byte) (bs : List Byte)
  | sendStr (broadcast : Bool) (d c : Byte) (text : List Byte)
  | sendI8 (broadcast : Bool) (d c : Byte) (v : BitVec 32)
  | sendI16 (broadcast : Bool) (d c : Byte) (v : BitVec 32)
  | sendI32 (broadcast : Bool) (d c : Byte) (v : BitVec 32)
  | waitDone
  | waitFrame
  | ack
  | clrDone
  deriving DecidableEq, Repr

/-- One part of an expansion (R102): a line, or the host loop that repeats a read until a bit of it is 1. -/
inductive Item
  | line (l : Line)
  /-- Repeat `RD a` until the bit is 1. -/
  | poll (a : Addr) (bit : Nat)
  deriving DecidableEq, Repr

/-- `WR TXBUF+i, b` for each byte, from index `i` on. -/
def txbufLines : Nat → List Byte → List Line
  | _, [] => []
  | i, b :: bs => .wr (BitVec.ofNat 12 (txbufBase + i)) b :: txbufLines (i + 1) bs

/-- `WR TX_DEST, d` ; `WR TX_CMD, c`. -/
def destCmdLines (d c : Byte) : List Line := [.wr 0x008#12 d, .wr 0x009#12 c]

/-- `WR TX_VAL0..`, the low `n` bytes of `v`. -/
def valLines (v : BitVec 32) (n : Nat) : List Line :=
  (List.range n).map (fun k => .wr (BitVec.ofNat 12 (0x00C + k)) (valByte v k))

/-- `WR COMMAND, op` or its B form. -/
def commandLine (broadcast : Bool) (op : BitVec 4) : Line := .wr addrCommand (commandByte broadcast op)

/-- Lines without a loop. -/
def lineItems (ls : List Line) : List Item := ls.map .line

/-- What a pseudo-instruction expands to (R102). DESIGN CHOICE, log 25: for more than MAX_LEN bytes, where R101 leaves
SEND and BSEND no length to write, TX_LEN0 gets the count modulo 256; and `TXBUF+i` past 0x1FF names the address
0x100 + i as it stands, for SENDSTR too. -/
def Pseudo.expand : Pseudo → List Item
  | .open_ s n d =>
    lineItems [.wr 0x001#12 s, .wr 0x002#12 n, .wr 0x000#12 d, commandLine false 0x1#4]
  | .close => [.line (commandLine false 0x2#4)]
  | .send d c bs =>
    lineItems (destCmdLines d c ++ [.wr 0x00A#12 (BitVec.ofNat 8 bs.length), .wr 0x00B#12 0x00#8] ++
      txbufLines 0 bs ++ [commandLine false 0x3#4])
  | .bsend c bs =>
    lineItems ([.wr 0x009#12 c, .wr 0x00A#12 (BitVec.ofNat 8 bs.length), .wr 0x00B#12 0x00#8] ++
      txbufLines 0 bs ++ [commandLine true 0x3#4])
  | .sendStr b d c text =>
    lineItems (destCmdLines d c ++ txbufLines 0 (text ++ [0x00#8]) ++ [commandLine b 0x4#4])
  | .sendI8 b d c v => lineItems (destCmdLines d c ++ valLines v 1 ++ [commandLine b 0x5#4])
  | .sendI16 b d c v => lineItems (destCmdLines d c ++ valLines v 2 ++ [commandLine b 0x6#4])
  | .sendI32 b d c v => lineItems (destCmdLines d c ++ valLines v 4 ++ [commandLine b 0x7#4])
  | .waitDone => [.poll addrStatus 3, .line (.rd addrResult none)]
  | .waitFrame => [.poll addrStatus 4]
  | .ack => [.line (.wr addrFrameAck 0x00#8)]
  | .clrDone => [.line (.wr addrStatus 0x08#8)]

/-- The bytes read by a loop that has just ended: the bit is 1 in the last of them and in no other (R102). -/
def pollEnds (bit : Nat) : List Byte → Bool
  | [] => false
  | [v] => v.getLsbD bit
  | v :: w :: vs => !v.getLsbD bit && pollEnds bit (w :: vs)

/-- The lines of an item whose loop makes `rounds` reads. How many it makes is a property of the run (R102). -/
def Item.lines (rounds : Nat) : Item → List Line
  | .line l => [l]
  | .poll a _ => List.replicate rounds (.rd a none)

/-- The turns of HOST and ENV a pseudo-instruction stands for, when its loop makes `rounds` reads (R101, R102). -/
def Pseudo.turns (rounds : Nat) (p : Pseudo) : List Turn :=
  (p.expand.flatMap (Item.lines rounds)).flatMap Line.turns

end Sys2Proof.Machine
end

