-- ==== Sys2Proof/Tests/Slice0.lean ====
section
/-! SUPPORT. The model's own tests: the smoke test of WellFormed, a decoding of every row by a word written out from
the spec's encodings, one step per instruction with its expected result from spec/95_test_vectors.md or a rule's
example, and for every statement with hypotheses a witness that meets them, one for each of its clauses. -/

namespace Sys2Proof.Tests

open Sys2Proof.Machine Sys2Proof.Safety

set_option maxRecDepth 20000

/-! ## WellFormed -/

/-- The addresses with a row of their own are refused in WR. -/
theorem test_wf_refuses_wr_command : (Instr.wr 0x003#12 0x01#8).wf = false := by decide
theorem test_wf_refuses_wr_status : (Instr.wr 0x004#12 0x08#8).wf = false := by decide
theorem test_wf_refuses_wr_frame_ack : (Instr.wr 0x014#12 0x00#8).wf = false := by decide
theorem test_wf_accepts_neighbours :
    (Instr.wr 0x002#12 0x00#8).wf = true ∧ (Instr.wr 0x005#12 0x00#8).wf = true ∧
      (Instr.wr 0x013#12 0x00#8).wf = true ∧ (Instr.wr 0x015#12 0x00#8).wf = true := by decide

/-! ## Decoding: the words of R96, R98 and R100, bit by bit -/

theorem test_decode_open : decode (.command 0b00000001#8) = .ok .cmdOpen := by decide
theorem test_decode_close : decode (.command 0b00000010#8) = .ok .cmdClose := by decide
theorem test_decode_send_raw : decode (.command 0b00000011#8) = .ok .sendRaw := by decide
theorem test_decode_send_str : decode (.command 0b00000100#8) = .ok .sendStr := by decide
theorem test_decode_send_i8 : decode (.command 0b00000101#8) = .ok .sendI8 := by decide
theorem test_decode_send_i16 : decode (.command 0b00000110#8) = .ok .sendI16 := by decide
theorem test_decode_send_i32 : decode (.command 0b00000111#8) = .ok .sendI32 := by decide
theorem test_decode_bsend_raw : decode (.command 0b00010011#8) = .ok .bsendRaw := by decide
theorem test_decode_bsend_str : decode (.command 0b00010100#8) = .ok .bsendStr := by decide
theorem test_decode_bsend_i8 : decode (.command 0b00010101#8) = .ok .bsendI8 := by decide
theorem test_decode_bsend_i16 : decode (.command 0b00010110#8) = .ok .bsendI16 := by decide
theorem test_decode_bsend_i32 : decode (.command 0b00010111#8) = .ok .bsendI32 := by decide
/-- R100's own example: WR STATION, 0x64 is 0x200164. -/
theorem test_decode_wr : decode (.bus 0b1000000000000101100100#22) = .ok (.wr 0x001#12 0x64#8) := by decide
/-- R100's own example: RD STATUS is 0x100400. -/
theorem test_decode_rd : decode (.bus 0b0100000000010000000000#22) = .ok (.rd 0x004#12) := by decide
theorem test_decode_wr_command : decode (.bus 0b1000000000001100010011#22) = .ok (.wrCommand 0x13#8) := by decide
theorem test_decode_wr_status : decode (.bus 0b1000000000010000001000#22) = .ok (.wrStatus 0x08#8) := by decide
theorem test_decode_wr_frame_ack :
    decode (.bus 0b1000000001010000000000#22) = .ok (.wrFrameAck 0x00#8) := by decide
theorem test_decode_ping : decode (.frameCmd 0b00000101#8) = .ok .ping := by decide
theorem test_decode_pong : decode (.frameCmd 0b00000110#8) = .ok .pong := by decide
theorem test_decode_qstat : decode (.frameCmd 0b00000111#8) = .ok .qstat := by decide
theorem test_decode_rstat : decode (.frameCmd 0b00001000#8) = .ok .rstat := by decide
theorem test_decode_relay : decode (.frameCmd 0b00001001#8) = .ok .relay := by decide
theorem test_decode_catchall : decode (.frameCmd 0b11111111#8) = .ok .catchall := by decide
/-- R97 and R100: B with OPEN, a reserved bit, and words with W = R are rejected by name. -/
theorem test_decode_rejects :
    decode (.command 0x11#8) = .error .illegalCommand ∧ decode (.command 0x23#8) = .error .illegalCommand ∧
      decode (.bus 0b1100000000010000000000#22) = .error .noAccess ∧
      decode (.bus 0b0000000000010000000000#22) = .error .noAccess ∧
      decode (.frameCmd 0x58#8) = .error .userCommand := by decide

/-! ## Small states -/

/-- Station 64 as OPEN leaves it. -/
def station64 : State := { State.reset with life := .running, cfg := ⟨0x64#8, 0x01#8, false⟩ }

/-- Station 32 as OPEN leaves it. -/
def station32 : State := { State.reset with life := .running, cfg := ⟨0x32#8, 0x01#8, false⟩ }

/-- Station 64 with the transmit parameters staged. -/
def staged (dest cmd : Byte) (len : BitVec 16) (val : BitVec 32) (buf : Memory) : State :=
  { station64 with txDest := dest, txCmd := cmd, txLen := len, txVal := val, buf := buf }

/-- TXBUF = 41 42 00. -/
def textAB : Memory := [(0x100, 0x41#8), (0x101, 0x42#8), (0x102, 0x00#8)]

/-- `s` with these turns to come. -/
def turns (ts : List Turn) (s : State) : State := { s with sched := ts }

/-- A property of the next state, false where there is none. -/
def meets (o : Host.Outcome State Fault Refusal) (p : State → Bool) : Bool :=
  match o with
  | .next t => p t
  | .fault _ => false
  | .refused _ => false

/-- What a read of `a` returns in the next state. -/
def reads (o : Host.Outcome State Fault Refusal) (a : Addr) (v : Byte) : Bool :=
  meets o (fun t => hostRead a t == v)

/-! ## One step per instruction -/

/-- Section 6: SOH_N = 00 and `xport_ok` = 0: ERR_PARAM is checked first. -/
theorem test_open_checks_param_first :
    reads (exec .cmdOpen { State.reset with sohN := 0x00#8, inp := ⟨false, true, true, true⟩ }) 0x005#12 0x06#8
      = true := by decide
/-- R267's example: after a successful OPEN, STATUS reads 0x09. -/
theorem test_open_status : reads (exec .cmdOpen State.reset) 0x004#12 0x09#8 = true := by decide
/-- L1-8: CLOSE from reset gives ERR_STATE, STATUS 0x08. -/
theorem test_close_not_open :
    reads (exec .cmdClose State.reset) 0x005#12 0x01#8 && reads (exec .cmdClose State.reset) 0x004#12 0x08#8
      = true := by decide
/-- Section 6: CLOSE with lock RX in RX_COLLECT: STATUS = 0x06. -/
theorem test_close_abandons :
    reads (exec .cmdClose { station64 with lock := .rx, rx := { Rx.reset with phase := .collect, hLen := 3#8 } })
      0x004#12 0x06#8 = true := by decide
/-- Section 6: running, TX_CMD = FF, TX_LEN = 0x100: ERR_CMD before ERR_LEN. -/
theorem test_send_raw_cmd_first :
    reads (exec .sendRaw (staged 0x32#8 0xFF#8 0x0100#16 0#32 [])) 0x005#12 0x05#8 = true := by decide
/-- Section 3: SEND_RAW of 01 02 03 from 32 to 64. -/
theorem test_send_raw_frame :
    meets (exec .sendRaw { station32 with
        txDest := 0x64#8, txCmd := 0x58#8, txLen := 3#16
        buf := [(0x100, 0x01#8), (0x101, 0x02#8), (0x102, 0x03#8)] })
      (fun t => hostJobFrame t == [0x01#8, 0x64#8, 0x32#8, 0x58#8, 0x03#8, 0x02#8, 0x01#8, 0x02#8, 0x03#8,
        0x03#8, 0xF7#8, 0x04#8]) = true := by decide
/-- Section 3: SEND_STR "AB". -/
theorem test_send_str_frame :
    meets (exec .sendStr (staged 0x32#8 0x30#8 0#16 0#32 textAB))
      (fun t => hostJobFrame t == [0x01#8, 0x32#8, 0x64#8, 0x30#8, 0x02#8, 0x02#8, 0x41#8, 0x42#8, 0x03#8,
        0x4B#8, 0x04#8]) = true := by decide
/-- Section 3: SEND_I8 ignores bits 31:8. -/
theorem test_send_i8_frame :
    meets (exec .sendI8 (staged 0x32#8 0x11#8 0#16 0x123456FF#32 []))
      (fun t => hostJobFrame t == [0x01#8, 0x32#8, 0x64#8, 0x11#8, 0x01#8, 0x02#8, 0xFF#8, 0x03#8, 0xA7#8,
        0x04#8]) = true := by decide
/-- Section 3: SEND_I16 of 0x1234. -/
theorem test_send_i16_frame :
    meets (exec .sendI16 (staged 0x32#8 0x10#8 0#16 0x1234#32 []))
      (fun t => hostJobFrame t == [0x01#8, 0x32#8, 0x64#8, 0x10#8, 0x02#8, 0x02#8, 0x34#8, 0x12#8, 0x03#8,
        0xEE#8, 0x04#8]) = true := by decide
/-- Section 3: SEND_I32 of 0x12345678. -/
theorem test_send_i32_frame :
    meets (exec .sendI32 (staged 0x32#8 0x20#8 0#16 0x12345678#32 []))
      (fun t => hostJobFrame t == [0x01#8, 0x32#8, 0x64#8, 0x20#8, 0x04#8, 0x02#8, 0x78#8, 0x56#8, 0x34#8,
        0x12#8, 0x03#8, 0xCE#8, 0x04#8]) = true := by decide
/-- Section 3: BSEND_RAW of AA from 32; TX_DEST is ignored. -/
theorem test_bsend_raw_frame :
    meets (exec .bsendRaw { station32 with
        txDest := 0x77#8, txCmd := 0x10#8, txLen := 1#16, buf := [(0x100, 0xAA#8)] })
      (fun t => hostJobFrame t == [0x01#8, 0x00#8, 0x32#8, 0x10#8, 0x01#8, 0x02#8, 0xAA#8, 0x03#8, 0xED#8,
        0x04#8]) = true := by decide
/-- Section 3: BSEND_STR "AB" with N = 2. -/
theorem test_bsend_str_frame :
    meets (exec .bsendStr { staged 0x77#8 0x30#8 0#16 0#32 textAB with cfg := ⟨0x64#8, 0x02#8, false⟩ })
      (fun t => hostJobFrame t == [0x01#8, 0x01#8, 0x00#8, 0x64#8, 0x30#8, 0x02#8, 0x02#8, 0x41#8, 0x42#8,
        0x03#8, 0x19#8, 0x04#8]) = true := by decide
/-- Section 3: BSEND_I8 of FF. -/
theorem test_bsend_i8_frame :
    meets (exec .bsendI8 (staged 0x77#8 0x11#8 0#16 0xFF#32 []))
      (fun t => hostJobFrame t == [0x01#8, 0x00#8, 0x64#8, 0x11#8, 0x01#8, 0x02#8, 0xFF#8, 0x03#8, 0x75#8,
        0x04#8]) = true := by decide
/-- R219's example: 0xBEEF is sent as EF BE, to 00. -/
theorem test_bsend_i16_payload :
    meets (exec .bsendI16 (staged 0x77#8 0x11#8 0#16 0xBEEF#32 []))
      (fun t => hostJobPayload t == [0xEF#8, 0xBE#8] && t.hjob.dest == 0x00#8) = true := by decide
/-- R220's example: 1 is sent as 01 00 00 00, to 00. -/
theorem test_bsend_i32_payload :
    meets (exec .bsendI32 (staged 0x77#8 0x11#8 0#16 1#32 []))
      (fun t => hostJobPayload t == [0x01#8, 0x00#8, 0x00#8, 0x00#8] && t.hjob.dest == 0x00#8) = true := by decide
/-- P3: WR TX_LEN1, 0x01 makes TX_LEN 0x0100. -/
theorem test_wr_tx_len : meets (exec (.wr 0x00B#12 0x01#8) station64) (fun t => t.txLen == 0x0100#16) = true := by
  decide
/-- R266's example: CMD_BUSY = 1, WR TXBUF+0, 0x55: TXBUF[0] unchanged. -/
theorem test_wr_txbuf_busy :
    meets (exec (.wr 0x100#12 0x55#8) { station64 with buf := textAB, hjob := { HJob.reset with valid := true } })
      (fun t => txbuf t 0 == 0x41#8) = true := by decide
/-- Section 6: RD of a reserved address gives 00 and a read is observed. -/
theorem test_rd_reserved :
    meets (exec (.rd 0x01C#12) station64) (fun t => t.obs == [.read 0x00#8]) = true := by decide
/-- Section 7: STATUS = 0x25 with a send accepted while the receiver holds the lock. -/
theorem test_rd_status :
    meets (exec (.rd 0x004#12) { station64 with
        lock := .rx, rx := { Rx.reset with phase := .collect, hLen := 3#8 }
        hjob := { HJob.reset with valid := true } })
      (fun t => t.obs == [.read 0x25#8]) = true := by decide
/-- Section 6: WR COMMAND, 0x23 (bit 5 set) gives ERR_ILLEGAL. -/
theorem test_wr_command_illegal : reads (exec (.wrCommand 0x23#8) State.reset) 0x005#12 0x07#8 = true := by decide
/-- Section 6: a send in progress: WR COMMAND, 0x02 is dropped. -/
theorem test_wr_command_busy :
    meets (exec (.wrCommand 0x02#8) { station64 with hjob := { HJob.reset with valid := true } })
      (fun t => t == { station64 with hjob := { HJob.reset with valid := true } }) = true := by decide
/-- Section 6: WR STATUS, 0x08 clears DONE; 0xF7 does not. -/
theorem test_wr_status :
    meets (exec (.wrStatus 0x08#8) { station64 with doneFlag := true }) (fun t => !t.doneFlag) &&
      meets (exec (.wrStatus 0xF7#8) { station64 with doneFlag := true }) (fun t => t.doneFlag) = true := by decide
/-- RX-1: WR FRAME_ACK after the delivery gives RX_SEEK and STATUS = 0x09. -/
theorem test_wr_frame_ack :
    reads (exec (.wrFrameAck 0x00#8) { station64 with
        doneFlag := true, rx := { Rx.reset with phase := .deliver } }) 0x004#12 0x09#8 = true := by decide
/-- L1-6: the PONG of 6F 6B 21 from 07 at station 64. -/
theorem test_ping_queues_reply :
    meets (exec .ping { station64 with
        rx := { Rx.reset with phase := .chkEot, hDest := 0x64#8, hSrc := 0x07#8, hCmd := 0x05#8, hLen := 0x03#8 }
        buf := [(0x200, 0x6F#8), (0x201, 0x6B#8), (0x202, 0x21#8)] })
      (fun t => pongJobFrame t == [0x01#8, 0x07#8, 0x64#8, 0x06#8, 0x03#8, 0x02#8, 0x6F#8, 0x6B#8, 0x21#8,
        0x03#8, 0x6F#8, 0x04#8] && !framePend t) = true := by decide
theorem test_pong_delivers : meets (exec .pong station64) (fun t => framePend t && !t.pjob.valid) = true := by decide
theorem test_qstat_delivers : meets (exec .qstat station64) (fun t => framePend t && !t.pjob.valid) = true := by decide
theorem test_rstat_delivers : meets (exec .rstat station64) (fun t => framePend t && !t.pjob.valid) = true := by decide
theorem test_relay_delivers : meets (exec .relay station64) (fun t => framePend t && !t.pjob.valid) = true := by decide
theorem test_catchall_delivers : meets (exec .catchall station64) (fun t => framePend t && !t.pjob.valid) = true := by
  decide

/-! ## The codec (section 2) -/

theorem test_checksum_wraps : checksum 0x80#8 0x81#8 0x82#8 0x01#8 [0x7F#8] = 0x03#8 := by decide
theorem test_checksum_empty : checksum 0x64#8 0x32#8 0x41#8 0x00#8 [] = 0xD7#8 := by decide

/-! ## One step of the receiver and of the engine -/

/-- R166's example: the byte 02 completes the header 64 32 58 03. -/
theorem test_rx_header :
    meets (takeTurn .rxf { station64 with
        rx := { Rx.reset with win := ⟨0x01#8, 0x64#8, 0x32#8, 0x58#8, 0x03#8⟩, wcnt := 5#3 }, rxIn := [0x02#8] })
      (fun t => t.rx.phase == .waitLock && t.rx.hDest == 0x64#8 && t.rx.hLen == 0x03#8 && t.rx.wcnt == 0#3)
      = true := by decide
/-- R168's example: `rx.acc` = F1. -/
theorem test_rx_grant :
    meets (takeTurn .rxf { station64 with
        rx := { Rx.reset with phase := .waitLock, hDest := 0x64#8, hSrc := 0x32#8, hCmd := 0x58#8, hLen := 3#8 } })
      (fun t => t.rx.acc == 0xF1#8 && t.lock == .rx && t.rx.phase == .collect) = true := by decide
/-- CK-7: the phantom header of N = 2 and LEN = STX is matched one byte early. -/
theorem test_rx_phantom_header :
    meets (takeTurn .rxf { station32 with
        rx := { Rx.reset with win := ⟨0x01#8, 0x01#8, 0x32#8, 0x64#8, 0x10#8⟩, wcnt := 5#3 }, rxIn := [0x02#8] })
      (fun t => t.rx.hDest == 0x01#8 && t.rx.hSrc == 0x32#8 && t.rx.hCmd == 0x64#8 && t.rx.hLen == 0x10#8)
      = true := by decide
/-- R231's example: `tx.acc` = F7 is sent. -/
theorem test_tx_checksum :
    meets (takeTurn .txe { station32 with
        lock := .txh, hjob := { HJob.reset with valid := true }
        tx := { phase := .chk, idx := 3#8, acc := 0xF7#8 } })
      (fun t => t.obs == [.tx 0xF7#8] && t.tx.phase == .eot) = true := by decide

/-! ## States that meet the invariant -/

/-- The machine's invariant, decided part by part. -/
def invCheck (s : State) : Bool :=
  decide (CursorBound s) && decide (ReceiverLock s) && decide (PongPending s) && decide (EngineLock s) &&
  decide (JobOfLock s) && decide (DirectionControl s) && decide (NotRunningIdle s) && decide (HostJobRuns s) &&
  decide (SentinelCount s) && decide (WindowCount s) && decide (HostJobShape s) && decide (EngineIndex s) &&
  decide (DirectionHeld s) && decide (DoneNotBusy s) && decide (CtrlReserved s) && decide (ResultCode s) &&
  decide (FilteredDest s) && decide (PongAnswersPing s) && decide (ParamsCovered s) && decide (BufferForm s)

theorem invCheck_sound (s : State) (h : invCheck s = true) : MachineInv s := by
  simp only [invCheck, Bool.and_eq_true, decide_eq_true_eq] at h
  obtain ⟨⟨⟨⟨⟨⟨⟨⟨⟨⟨⟨⟨⟨⟨⟨⟨⟨⟨⟨a1, a2⟩, a3⟩, a4⟩, a5⟩, a6⟩, a7⟩, a8⟩, a9⟩, a10⟩, b1⟩, b2⟩, b3⟩, b4⟩, b5⟩, b6⟩, b7⟩,
    b8⟩, b9⟩, b10⟩ := h
  exact ⟨⟨a1, a2, a3, a4, a5, a6, a7, a8, a9, a10⟩, b1, b2, b3, b4, b5, b6, b7, b8, b9, b10⟩

/-- Station 32 with direction control, whose host job of one raw byte is in `phase` with `tx.idx` = 0. -/
def sending (phase : TxPhase) (acc : Byte) : State :=
  { station32 with
    cfg := ⟨0x32#8, 0x01#8, true⟩
    hjob := { HJob.reset with valid := true, dest := 0x64#8, orig := 0x32#8, cmd := 0x58#8, len := 1#8 }
    lock := .txh, de := true, buf := [(0x100, 0xAA#8)]
    tx := { phase := phase, idx := 0#8, acc := acc } }

/-- Station 32 with an accepted host job and nothing granted. -/
def accepted : State :=
  { station32 with
    hjob := { HJob.reset with valid := true, dest := 0x64#8, orig := 0x32#8, cmd := 0x58#8, len := 1#8 }
    buf := [(0x100, 0xAA#8)] }

/-- Station 64 with the header of a frame from 32 to 64, of command `cmd` and one payload byte, in `phase`. -/
def receiving (phase : RxPhase) (cmd cursor : Byte) : State :=
  { station64 with
    lock := .rx
    rx := { Rx.reset with
      phase := phase, hDest := 0x64#8, hSrc := 0x32#8, hCmd := cmd, hLen := 1#8, cursor := cursor
      acc := 0x97#8 + cmd, trl := 0x97#8 + cmd } }

/-- Station 64 that has recognised a header to `dest`. -/
def waiting (dest : Byte) : State :=
  { station64 with
    rx := { Rx.reset with phase := .waitLock, hDest := dest, hSrc := 0x32#8, hCmd := 0x58#8, hLen := 1#8 } }

/-- Station 64 with a PING of no payload from 07 to be answered. -/
def ponging : State :=
  { station64 with
    pjob := ⟨true, 0x07#8, 0x64#8, 0#8⟩
    rx := { Rx.reset with
      phase := .pongWait, hDest := 0x64#8, hSrc := 0x07#8, hCmd := 0x05#8, acc := 0x70#8, trl := 0x70#8 } }

/-- The reply of `ponging` in `phase`. -/
def replying (phase : TxPhase) : State :=
  { ponging with lock := .txp, tx := { phase := phase, idx := 0#8, acc := 0#8 } }

/-- Station 64 with a frame to be taken by the host. -/
def delivering : State :=
  { station64 with
    rx := { Rx.reset with phase := .deliver, hDest := 0x64#8, hSrc := 0x32#8, hCmd := 0x58#8 } }

/-- Station 64 that closes. -/
def closing : State := { station64 with life := .closing }

/-- A state whose invariant holds and whose step answers a next state with property `p`. -/
def stepMeets (s : State) (p : State → Bool) : Bool := invCheck s && meets (step s) p

/-! ## Witnesses: encodings -/

theorem test_witness_EncodeThenDecodeGivesTheInstruction :
    (Instr.wr 0xFFF#12 0xFF#8).wf = true ∧ (Instr.rd 0x000#12).wf = true ∧ Instr.cmdOpen.wf = true := by decide
theorem test_witness_DecodedWordsAreEncodings :
    decode (.bus (readWord 0xFFF#12)) = .ok (.rd 0xFFF#12) ∧ decode (.command 0x17#8) = .ok .bsendI32 ∧
      decode (.frameCmd 0xFF#8) = .ok .catchall := by decide
theorem test_witness_CommandBytesOutsideTheTwelveAreIllegal :
    decodeCommand 0x00#8 = .error .illegalCommand ∧ decodeCommand 0x08#8 = .error .illegalCommand ∧
      decodeCommand 0x12#8 = .error .illegalCommand ∧ decodeCommand 0x18#8 = .error .illegalCommand ∧
      decodeCommand 0xFF#8 = .error .illegalCommand ∧ cmdBusy State.reset = false ∧ cmdBusy accepted = true := by
  decide

/-! ## Witnesses: host commands -/

theorem test_witness_CommandWriteRunsItsRow :
    cmdBusy closing = true ∧ decodeCommand 0x01#8 = .ok .cmdOpen ∧ cmdBusy station64 = false ∧
      (decodeCommand 0x08#8).toOption = none := by decide
theorem test_witness_OpenChecksThenStarts :
    (cmdBusy station64 = false ∧ station64.life = .running) ∧
    (cmdBusy { State.reset with sohN := 0x00#8 } = false ∧ State.reset.life ≠ .running) ∧
    (State.reset.sohN ≠ 0x00#8 ∧ (⟨false, true, true, true⟩ : Inputs).xportOk = false) ∧
    (({ State.reset with ctrl := 0x01#8 } : State).ctrl.getLsbD 0 = true ∧
      (⟨true, false, true, true⟩ : Inputs).xportOk = true ∧ (⟨true, false, true, true⟩ : Inputs).deOk = false) ∧
    (cmdBusy { State.reset with sohN := 0xFF#8 } = false ∧ State.reset.inp.xportOk = true ∧
      State.reset.inp.deOk = true) := by decide
theorem test_witness_CloseAbandonsTheFrameAndBeginsToClose :
    (cmdBusy State.reset = false ∧ State.reset.life ≠ .running) ∧
    (cmdBusy (waiting 0x64#8) = false ∧ (waiting 0x64#8).life = .running ∧ (waiting 0x64#8).rx.phase = .waitLock) ∧
    (cmdBusy (receiving .chkEot 0x58#8 1#8) = false ∧ (receiving .chkEot 0x58#8 1#8).rx.phase = .chkEot) ∧
    (station64.life = .running ∧ station64.rx.phase = .seek) ∧ (cmdBusy ponging = false ∧
      ponging.rx.phase = .pongWait) ∧ delivering.rx.phase = .deliver := by decide
theorem test_witness_CloseDoneStopsTheIdleEndpoint :
    (closing.life = .closing ∧ closing.rx.phase = .seek ∧ closing.lock = .none ∧ closing.pjob.valid = false ∧
      closing.tx.phase = .idle) ∧
    ¬ (station64.life = .closing ∧ station64.rx.phase = .seek ∧ station64.lock = .none ∧
      station64.pjob.valid = false ∧ station64.tx.phase = .idle) := by decide
theorem test_witness_RawSendsCreateTheHostJob :
    cmdBusy (staged 0x32#8 0x41#8 0x00FF#16 0#32 []) = false ∧
      (staged 0x32#8 0x41#8 0x00FF#16 0#32 []).txLen.toNat ≤ 255 ∧
      255 < (staged 0x32#8 0x41#8 0x0100#16 0#32 []).txLen.toNat ∧ station64.life = .running ∧
      State.reset.life ≠ .running ∧ (staged 0x32#8 0xFF#8 0x00FF#16 0#32 []).txCmd = 0xFF#8 := by decide

/-- TXBUF with 255 bytes 01 and `last` at index 255. -/
def fullText (last : Byte) : Memory := (List.range 255).map (fun i => (0x100 + i, 0x01#8)) ++ [(0x1FF, last)]

theorem test_witness_StringSendsCreateTheHostJob :
    (cmdBusy (staged 0x32#8 0x30#8 0#16 0#32 [(0x100, 0x00#8)]) = false ∧
      txbuf (staged 0x32#8 0x30#8 0#16 0#32 [(0x100, 0x00#8)]) 0 = 0x00#8) ∧
    (txbuf (staged 0x32#8 0x30#8 0#16 0#32 (fullText 0x00#8)) 255 = 0x00#8 ∧
      ∀ j, j < 255 → txbuf (staged 0x32#8 0x30#8 0#16 0#32 (fullText 0x00#8)) j ≠ 0x00#8) ∧
    (∀ j, j ≤ 255 → txbuf (staged 0x32#8 0x30#8 0#16 0#32 (fullText 0x01#8)) j ≠ 0x00#8) := by decide +kernel
theorem test_witness_TypedSendsCreateTheHostJob :
    cmdBusy (staged 0x32#8 0x30#8 0#16 0xFFFFFFFF#32 []) = false ∧ station64.life = .running ∧
      (staged 0x32#8 0x30#8 0#16 0xFFFFFFFF#32 []).txCmd ≠ 0xFF#8 := by decide
theorem test_witness_AcceptedSendIsKeptUntilItCompletes :
    (stepMeets (turns [hostWriteTurn 0x008#12 0x55#8] accepted) (fun t => t.hjob.valid) &&
      stepMeets (turns [.txe] (sending .flush 0x00#8)) (fun t => !t.hjob.valid && t.doneFlag)) = true := by decide

/-! ## Witnesses: host bus -/

theorem test_witness_StatusWriteClearsDone :
    (0x08#8).getLsbD 3 = true ∧ (0xFF#8).getLsbD 3 = true ∧ (0xF7#8).getLsbD 3 = false := by decide
theorem test_witness_FrameAckEndsTheDelivery :
    delivering.rx.phase = .deliver ∧ ponging.rx.phase ≠ .deliver := by decide
theorem test_witness_HostWriteFollowsTheMap :
    cmdBusy station64 = false ∧ cmdBusy accepted = true ∧
      (0x00F#12).toNat ≤ 0x00F ∧ (0x1FF#12).toNat ≤ 0x1FF ∧ 0x015 ≤ (0x015#12).toNat ∧
      (0x0FF#12).toNat ≤ 0x0FF ∧ 0x200 ≤ (0x200#12).toNat ∧ 0x200 ≤ (0xFFF#12).toNat := by decide
theorem test_witness_HostReadFollowsTheMap :
    (0x01C ≤ (0x01C#12).toNat ∧ (0x0FF#12).toNat ≤ 0x0FF) ∧ 0x2FF ≤ (0x2FF#12).toNat ∧
      0x2FF ≤ (0xFFF#12).toNat := by decide
theorem test_witness_ParameterWriteReadsBackAndChangesNoOtherByte :
    cmdBusy station64 = false ∧ 0x008 ≤ (0x008#12).toNat ∧ (0x00F#12).toNat ≤ 0x00F ∧
      0x100 ≤ (0x100#12).toNat ∧ (0x1FF#12).toNat ≤ 0x1FF ∧ (0x1FF#12 : Addr) ≠ 0x100#12 := by decide
theorem test_witness_InstructionsStoreOnlyTheNamedTxbufByte :
    (meets (exec (.wr 0x1FF#12 0x55#8) { station64 with buf := [(0x1FF, 0xAA#8)] })
      (fun t => readBuf t 0x1FF == 0x55#8) && meets (exec .cmdOpen State.reset) (fun _ => true)) = true := by decide
theorem test_witness_OnlyThreeWritesDoMoreThanStore :
    (meets (exec (.rd 0x004#12) station64) (fun _ => true) &&
      meets (exec (.wr 0x002#12 0x55#8) station64) (fun _ => true) &&
      meets (exec (.wr 0x005#12 0x55#8) station64) (fun _ => true)) = true := by decide
theorem test_witness_HostCycleIsOneAccess :
    ((⟨true, false, 0x003#12, 0x01#8⟩ : HostCycle).we = true ∧ (⟨true, false, 0x003#12, 0x01#8⟩ : HostCycle).re = false) ∧
    ((⟨false, true, 0x004#12, 0xFF#8⟩ : HostCycle).we = false ∧ (⟨false, true, 0x004#12, 0xFF#8⟩ : HostCycle).re = true) ∧
    (⟨true, true, 0x003#12, 0x01#8⟩ : HostCycle).we = (⟨true, true, 0x003#12, 0x01#8⟩ : HostCycle).re ∧
    (⟨false, false, 0x003#12, 0x01#8⟩ : HostCycle).we = (⟨false, false, 0x003#12, 0x01#8⟩ : HostCycle).re := by decide

/-! ## Witnesses: whole-machine rules -/

theorem test_witness_LifeAndConfigurationChangeOnlyByTheirRules :
    (stepMeets (turns [hostWriteTurn 0x003#12 0x01#8] { State.reset with station := 0x64#8 })
        (fun t => t.life != .uninit && t.cfg != State.reset.cfg) &&
      stepMeets (turns [hostWriteTurn 0x003#12 0x02#8] station64) (fun t => t.life == .closing) &&
      stepMeets (turns [.ctl] closing) (fun t => t.life == .stopped) &&
      stepMeets (turns [.rst ⟨true, false, 0x003#12, 0x01#8⟩] station64)
        (fun t => t.life == .uninit && t.cfg != station64.cfg)) = true := by decide
theorem test_witness_DoneAndResultChangeOnlyByTheirRules :
    (stepMeets (turns [hostWriteTurn 0x003#12 0x00#8] station64) (fun t => t.doneFlag && t.result != 0x00#8) &&
      stepMeets (turns [.ctl] closing) (fun t => t.doneFlag) &&
      stepMeets (turns [.txe] (sending .flush 0x00#8)) (fun t => t.doneFlag) &&
      stepMeets (turns [hostWriteTurn 0x003#12 0x02#8] { station64 with doneFlag := true })
        (fun t => !t.doneFlag) &&
      stepMeets (turns [hostWriteTurn 0x004#12 0x08#8] { station64 with doneFlag := true })
        (fun t => !t.doneFlag) &&
      stepMeets (turns [.rst ⟨false, false, 0x000#12, 0x00#8⟩] { station64 with doneFlag := true, result := 0x07#8 })
        (fun t => !t.doneFlag && t.result != 0x07#8)) = true := by decide
theorem test_witness_BusyAndPendingRiseAndFallWhereNamed :
    (stepMeets (turns [hostWriteTurn 0x003#12 0x05#8] station64) (fun t => cmdBusy t && t.hjob.valid) &&
      stepMeets (turns [hostWriteTurn 0x003#12 0x02#8] station64) (fun t => cmdBusy t && t.life == .closing) &&
      stepMeets (turns [.txe] (sending .flush 0x00#8)) (fun t => !cmdBusy t) &&
      stepMeets (turns [.ctl] closing) (fun t => !cmdBusy t) &&
      stepMeets (turns [.rxf] { receiving .chkEot 0x58#8 1#8 with rxIn := [0x04#8] }) (fun t => framePend t) &&
      stepMeets (turns [.txe] (replying .flush)) (fun t => framePend t) &&
      stepMeets (turns [hostWriteTurn 0x014#12 0x00#8] delivering) (fun t => !framePend t)) = true := by decide
theorem test_witness_OutputsFollowTheState :
    ((outputs false ⟨false, false, 0x000#12, 0x00#8⟩ (sending .chk 0xF7#8)).txValid &&
      meets (takeTurn .txe (sending .chk 0xF7#8)) (fun _ => true) && invCheck (sending .payload 0x00#8) &&
      meets (takeTurn (hostWriteTurn 0x100#12 0x55#8) (sending .payload 0x00#8)) (fun _ => true) &&
      !(outputs false ⟨false, false, 0x000#12, 0x00#8⟩ station64).txValid) = true := by decide

/-! ## Witnesses: reception -/

theorem test_witness_ReceiverTakesOneByteInItsPhases :
    (meets (takeTurn .rxf { station64 with rxIn := [0x01#8] }) (fun t => t.rxIn == []) &&
      meets (takeTurn (.env (.offer 0x01#8)) station64) (fun t => t.rxIn == [0x01#8]) &&
      station64.rx.phase.takesBytes) = true := by decide
theorem test_witness_SeekingShiftsOrLatchesTheHeader :
    State.reset.rx.phase = .seek ∧ State.reset.life ≠ .running ∧ station64.life = .running ∧
      (5#3 = 5#3 ∧ 0x01#8 = Config.defaults.soh ∧ 0x02#8 = Config.defaults.stx ∧ 0x64#8 ≠ (0x32#8 : Byte)) ∧
      ¬ (5#3 = 5#3 ∧ 0x01#8 = Config.defaults.soh ∧ 0x02#8 = Config.defaults.stx ∧ 0x64#8 ≠ (0x64#8 : Byte)) := by
  decide
theorem test_witness_GrantFiltersTheHeader :
    ((waiting 0x64#8).rx.phase = .waitLock ∧ (waiting 0x64#8).lock = .none ∧
      (waiting 0x64#8).rx.hDest = (waiting 0x64#8).cfg.station) ∧ (waiting 0x00#8).rx.hDest = 0x00#8 ∧
    ¬ ((waiting 0x09#8).rx.hDest = (waiting 0x09#8).cfg.station ∨ (waiting 0x09#8).rx.hDest = 0x00#8) ∧
    ({ waiting 0x64#8 with lock := .txh } : State).lock ≠ .none := by decide
theorem test_witness_CollectStoresOnePayloadByte :
    (receiving .collect 0x58#8 0#8).rx.phase = .collect ∧
      (receiving .collect 0x58#8 0#8).rx.cursor.toNat < (receiving .collect 0x58#8 0#8).rx.hLen.toNat ∧
      (254#8 : Byte).toNat < (255#8 : Byte).toNat := by decide
theorem test_witness_TrailerBytesAreCheckedAndStored :
    (receiving .chkEtx 0x58#8 1#8).rx.phase = .chkEtx ∧ 0x03#8 = (receiving .chkEtx 0x58#8 1#8).par.etx ∧
      0x04#8 ≠ (receiving .chkEtx 0x58#8 1#8).par.etx ∧ (receiving .readChk 0x58#8 1#8).rx.phase = .readChk := by
  decide
theorem test_witness_LastByteDispatchesOrDiscards :
    ((receiving .chkEot 0x05#8 1#8).rx.phase = .chkEot ∧ 0x04#8 = (receiving .chkEot 0x05#8 1#8).par.eot ∧
      (receiving .chkEot 0x05#8 1#8).rx.trl = (receiving .chkEot 0x05#8 1#8).rx.acc ∧
      (receiving .chkEot 0x05#8 1#8).rx.hCmd = 0x05#8) ∧ (receiving .chkEot 0xFF#8 1#8).rx.hCmd ≠ 0x05#8 ∧
    ¬ (0x00#8 = (receiving .chkEot 0x58#8 1#8).par.eot ∧
      (receiving .chkEot 0x58#8 1#8).rx.trl = (receiving .chkEot 0x58#8 1#8).rx.acc) := by decide
theorem test_witness_ReceivePathTouchesNothingElse :
    (meets (takeTurn .rxf { receiving .chkEot 0x05#8 1#8 with rxIn := [0x04#8] })
        (fun t => t.pjob.valid && t.rx.phase == .pongWait) &&
      meets (takeTurn .tick (receiving .collect 0x58#8 0#8)) (fun t => t.rx.idle == 1#32) &&
      meets (takeTurn .idleAbort (receiving .collect 0x58#8 0#8)) (fun _ => true)) = true := by decide
theorem test_witness_IdleCounterAndIdleAbort :
    (receiving .collect 0x58#8 0#8).rx.phase = .collect ∧ station64.rx.phase = .seek ∧
      ({ Config.defaults with tRxIdle := 3#32 } : Config.Params).tRxIdle ≠ 0#32 ∧
      ({ Config.defaults with tRxIdle := 3#32 } : Config.Params).tRxIdle.toNat ≤ (3#32).toNat ∧
      (2#32).toNat < ({ Config.defaults with tRxIdle := 3#32 } : Config.Params).tRxIdle.toNat ∧
      Config.defaults.tRxIdle = 0#32 := by decide
theorem test_witness_BuffersChangeOnlyByTheirOwners :
    (stepMeets (turns [hostWriteTurn 0x1FF#12 0x55#8] { station64 with buf := [(0x1FF, 0xAA#8)] })
        (fun t => readBuf t 0x1FF != 0xAA#8) &&
      stepMeets (turns [.rxf] { receiving .collect 0x58#8 0#8 with rxIn := [0x55#8], buf := [(0x200, 0xAA#8)] })
        (fun t => readBuf t 0x200 != 0xAA#8)) = true := by decide
theorem test_witness_PongWaitEndsOnlyWithTheReply :
    (stepMeets (turns [.txe] (replying .flush)) (fun t => t.rx.phase == .deliver) &&
      stepMeets (turns [.env (.offer 0x01#8)] ponging) (fun t => t.rx.phase == .pongWait)) = true := by decide
theorem test_witness_FrameFedIsDelivered :
    ∃ (s : State) (d o c : Byte) (p q : List Byte) (rest : List Turn),
      s.par.Distinct ∧ s.life = .running ∧ s.rx.phase = .seek ∧ s.rx.wcnt = 0#3 ∧ s.lock = .none ∧
      (d = s.cfg.station ∨ d = 0x00#8) ∧ p.length ≤ 255 ∧ d ≠ o ∧
      ¬ (2 ≤ 1 ∧ BitVec.ofNat 8 p.length = s.par.stx ∧ d ≠ s.par.soh) ∧ c ≠ 0x05#8 ∧
      s.rxIn = encodeFrame s.par 1 d o c p ++ q ∧
      s.sched = List.replicate (1 + p.length + 9) .rxf ++ rest :=
  ⟨{ station64 with
      rxIn := encodeFrame Config.defaults 1 0x64#8 0x32#8 0x58#8 [0x01#8, 0x02#8, 0x03#8] ++ [0x01#8]
      sched := List.replicate 13 .rxf ++ [.ctl] },
    0x64#8, 0x32#8, 0x58#8, [0x01#8, 0x02#8, 0x03#8], [0x01#8], [.ctl], by decide⟩
/-- A PING, broadcast, with two start sentinels, three payload bytes and another frame's byte after it. -/
theorem test_witness_FrameFedIsDelivered_ping :
    ∃ (s : State) (d o c : Byte) (p q : List Byte) (rest : List Turn),
      s.par.Distinct ∧ s.life = .running ∧ s.rx.phase = .seek ∧ s.rx.wcnt = 0#3 ∧ s.lock = .none ∧
      (d = s.cfg.station ∨ d = 0x00#8) ∧ 1 ≤ 2 ∧ p.length ≤ 255 ∧ d ≠ o ∧
      ¬ (2 ≤ 2 ∧ BitVec.ofNat 8 p.length = s.par.stx ∧ d ≠ s.par.soh) ∧ c = 0x05#8 ∧
      s.rxIn = encodeFrame s.par 2 d o c p ++ q ∧
      s.sched = List.replicate (2 + p.length + 9) .rxf ++ rest :=
  ⟨{ station64 with
      rxIn := encodeFrame Config.defaults 2 0x00#8 0x32#8 0x05#8 [0x01#8, 0x02#8, 0x03#8] ++ [0x01#8]
      sched := List.replicate 14 .rxf ++ [.ctl] },
    0x00#8, 0x32#8, 0x05#8, [0x01#8, 0x02#8, 0x03#8], [0x01#8], [.ctl], by decide⟩
/-- The longest payload, and the most start sentinels, meet the premises of the delivering statement too. -/
theorem test_witness_FrameFedIsDelivered_bounds :
    ([] : List Byte).length ≤ 255 ∧ 0x00#8 ≠ (0x07#8 : Byte) ∧ (List.replicate 255 (0xFF#8 : Byte)).length ≤ 255 ∧
      ¬ (2 ≤ 255 ∧ BitVec.ofNat 8 255 = Config.defaults.stx ∧ 0x00#8 ≠ Config.defaults.soh) := by decide
/-- Both clauses: an empty frame of a user command, and a PING. -/
theorem test_witness_NoiseThenFrameIsDelivered :
    ∀ c ∈ [0x58#8, 0x05#8], ∃ (s : State) (g : List Byte) (d o : Byte) (p q : List Byte) (rest : List Turn),
      s.par.Distinct ∧ s.life = .running ∧ s.rx.phase = .seek ∧ s.rx.wcnt = 0#3 ∧ s.lock = .none ∧
      (∀ x, x ∈ g → x ≠ s.par.soh) ∧ (d = s.cfg.station ∨ d = 0x00#8) ∧ p.length ≤ 255 ∧ d ≠ o ∧
      ¬ (2 ≤ 1 ∧ BitVec.ofNat 8 p.length = s.par.stx ∧ d ≠ s.par.soh) ∧
      s.rxIn = g ++ encodeFrame s.par 1 d o c p ++ q ∧
      s.sched = List.replicate (g.length + 1 + p.length + 9) .rxf ++ rest := fun c _ =>
  ⟨{ station64 with
      rxIn := [0xAA#8, 0x55#8, 0xFF#8, 0x00#8] ++ encodeFrame Config.defaults 1 0x64#8 0x32#8 c [] ++ []
      sched := List.replicate 14 .rxf ++ [] },
    [0xAA#8, 0x55#8, 0xFF#8, 0x00#8], 0x64#8, 0x32#8, [], [], [],
    (by decide : Config.defaults.Distinct), rfl, rfl, rfl, rfl,
    (by decide : ∀ x ∈ [0xAA#8, 0x55#8, 0xFF#8, 0x00#8], x ≠ Config.defaults.soh), .inl rfl, by decide, by decide,
    (by decide : ¬ (2 ≤ 1 ∧ 0#8 = Config.defaults.stx ∧ 0x64#8 ≠ Config.defaults.soh)), rfl, rfl⟩
theorem test_witness_FrameWithAWrongTrailerIsDiscarded :
    ∃ (s : State) (d o c x y : Byte) (p q : List Byte) (rest : List Turn),
      s.par.Distinct ∧ s.life = .running ∧ s.rx.phase = .seek ∧ s.rx.wcnt = 0#3 ∧ s.lock = .none ∧
      (d = s.cfg.station ∨ d = 0x00#8) ∧ p.length ≤ 255 ∧ d ≠ o ∧
      ¬ (2 ≤ 1 ∧ BitVec.ofNat 8 p.length = s.par.stx ∧ d ≠ s.par.soh) ∧
      (x ≠ checksum d o c (BitVec.ofNat 8 p.length) p ∨ y ≠ s.par.eot) ∧
      s.rxIn = List.replicate 1 s.par.soh ++ [d, o, c, BitVec.ofNat 8 p.length, s.par.stx] ++ p ++
        [s.par.etx, x, y] ++ q ∧
      s.sched = List.replicate (1 + p.length + 9) .rxf ++ rest :=
  ⟨{ station64 with
      rxIn := [0x01#8, 0x64#8, 0x32#8, 0x58#8, 0x03#8, 0x02#8, 0x01#8, 0x02#8, 0x03#8, 0x03#8, 0xF6#8, 0x04#8]
      sched := List.replicate 13 .rxf },
    0x64#8, 0x32#8, 0x58#8, 0xF6#8, 0x04#8, [0x01#8, 0x02#8, 0x03#8], [], [], by decide⟩
theorem test_witness_ReceiveChecksumIsKept :
    stepMeets (turns [.rxf] { receiving .collect 0x58#8 0#8 with
        rxIn := [0x55#8], rx := { (receiving .collect 0x58#8 0#8).rx with acc := 0xEF#8 } })
      (fun t => decide (ReceiveChecksum t)) = true ∧
    ReceiveChecksum { receiving .collect 0x58#8 0#8 with
      rx := { (receiving .collect 0x58#8 0#8).rx with acc := 0xEF#8 } } ∧
    DeliveredChecksum ponging ∧ ReceiveChecksum ponging := by decide

/-! ## Witnesses: transmission -/

theorem test_witness_GrantsAreExclusiveAndStartTheFrame :
    (grantRx (waiting 0x64#8) && grantTxp ponging && grantTxh accepted && !grantTxp station64 &&
      !grantTxh station64) = true ∧ station64.tx.phase = .idle := by decide
theorem test_witness_EngineSendsItsPhaseByte :
    ((sending .soh 0#8).lock = .txh ∧ 0 < (sending .soh 0#8).hjob.len.toNat ∧
      (sending .soh 0#8).hjob.kind = .raw) ∧ (replying .soh).lock = .txp ∧
    (currentJob (sending .soh 0#8)).isSome = true ∧ (sending .soh 0#8).inp.txReady = true ∧
    payloadByte (sending .payload 0#8) (sending .payload 0#8).tx.idx.toNat = some 0xAA#8 ∧
    (⟨true, true, false, true⟩ : Inputs).txReady = false := by decide
theorem test_witness_FlushCompletesTheJob :
    ((sending .flush 0#8).tx.phase = .flush ∧ (sending .flush 0#8).inp.flushDone = true ∧
      (sending .flush 0#8).lock = .txh) ∧ ((replying .flush).tx.phase = .flush ∧ (replying .flush).lock = .txp) ∧
    (⟨true, true, true, false⟩ : Inputs).flushDone = false := by decide
/-- The accumulator invariant holds of `sending` in T_SOH and T_PAYLOAD, so the statement on the next byte and that
on the accumulator have states to speak of. -/
theorem test_transmitChecksum_sending :
    TransmitChecksum (sending .soh 0x00#8) ∧ TransmitChecksum (sending .payload 0xEF#8) := by
  refine ⟨fun j hj => ?_, fun j hj => ?_⟩ <;> cases hj <;> rfl
theorem test_witness_NextByteSentIsTheNextByteOfTheFrame :
    invCheck (sending .soh 0x00#8) = true ∧ invCheck (sending .payload 0xEF#8) = true ∧
      (currentJob (sending .payload 0xEF#8)).isSome = true ∧ (sending .payload 0xEF#8).tx.phase ≠ .flush ∧
      (sending .payload 0xEF#8).inp.txReady = true := by decide
theorem test_witness_TransmissionIsNotDisturbed :
    (invCheck (sending .payload 0xEF#8) &&
      meets (takeTurn (hostWriteTurn 0x100#12 0x55#8) (sending .payload 0xEF#8)) (fun t => txbuf t 0 == 0xAA#8) &&
      meets (takeTurn .rxf (sending .payload 0xEF#8)) (fun _ => true)) = true ∧
    (sending .payload 0xEF#8).tx.phase ≠ .idle := by decide
theorem test_witness_HostSendTransmitsExactlyItsFrame :
    invCheck (turns (List.replicate 12 .txe) accepted) = true ∧ accepted.hjob.valid = true ∧
      accepted.pjob.valid = false ∧ accepted.lock = .none ∧ accepted.rx.phase ≠ .waitLock ∧
      accepted.inp.txReady = true ∧ accepted.inp.flushDone = true ∧
      accepted.cfg.sohN.toNat + accepted.hjob.len.toNat + 10 = 12 := by decide
theorem test_witness_PongReplyIsSentBeforeTheDelivery :
    invCheck (turns (List.replicate 11 .txe) ponging) = true ∧ ponging.pjob.valid = true ∧ ponging.lock = .none ∧
      ponging.inp.txReady = true ∧ ponging.inp.flushDone = true ∧
      ponging.cfg.sohN.toNat + ponging.rx.hLen.toNat + 10 = 11 := by decide
theorem test_witness_JoinedEndpointsDeliverTheSentFrame :
    invCheck (turns (List.replicate 12 .txe) accepted) = true ∧ accepted.inp.txReady = true ∧
      accepted.inp.flushDone = true ∧ accepted.lock = .none ∧ accepted.pjob.valid = false ∧
      station64.par = accepted.par ∧ station64.life = .running ∧ station64.rx.phase = .seek ∧
      station64.rx.wcnt = 0#3 ∧ station64.lock = .none ∧ station64.rxIn = [] ∧
      accepted.hjob.valid = true ∧ accepted.hjob.dest = station64.cfg.station ∧
      accepted.hjob.dest ≠ accepted.hjob.orig ∧ accepted.cfg.sohN.toNat = 1 ∧
      accepted.cfg.sohN.toNat + accepted.hjob.len.toNat + 9 = 11 := by decide
/-- P5: one byte of A is offered to B and changes nothing else of B. -/
theorem test_joined_byte_reaches_the_other :
    Joined.step .a ⟨turns [.txe] (sending .soh 0x00#8), station64⟩ =
      .next ⟨{ sending .dest 0x00#8 with obs := [.tx 0x01#8] }, { station64 with rxIn := [0x01#8] }⟩ := by
  rfl
theorem test_witness_TransmitChecksumIsKept :
    stepMeets (turns [.txe] (sending .payload 0xEF#8)) (fun t => t.tx.acc == 0x99#8 && t.tx.phase == .etx) = true := by
  decide
theorem test_witness_ChecksumIsTheSumModulo256 :
    [0x01#8, 0x02#8].isPerm [0x02#8, 0x01#8] = true := by decide
theorem test_witness_DirectionControlBracketsTheFrame :
    (stepMeets (turns [.txe] { accepted with cfg := ⟨0x32#8, 0x01#8, true⟩ }) (fun t => t.de) &&
      stepMeets (turns [.txe] (sending .flush 0#8)) (fun t => !t.de) &&
      stepMeets (turns [.rst ⟨false, false, 0x000#12, 0x00#8⟩] (sending .payload 0#8)) (fun t => !t.de) &&
      stepMeets (turns [.txe] (sending .payload 0#8)) (fun t => sentBytes t.obs == [0xAA#8])) = true ∧
    accepted.tx.phase = .idle := by decide
theorem test_witness_LockChangesOnlyAtItsIntervals :
    (stepMeets (turns [.rxf] (waiting 0x64#8)) (fun t => t.lock == .rx) &&
      stepMeets (turns [.txe] accepted) (fun t => t.lock == .txh) &&
      stepMeets (turns [.txe] ponging) (fun t => t.lock == .txp) &&
      stepMeets (turns [.rxf] { receiving .chkEtx 0x58#8 1#8 with rxIn := [0x00#8] }) (fun t => t.lock == .none) &&
      stepMeets (turns [.idleAbort] { receiving .collect 0x58#8 0#8 with
        par := { Config.defaults with tRxIdle := 1#32 }
        rx := { (receiving .collect 0x58#8 0#8).rx with idle := 1#32 } }) (fun t => t.lock == .none) &&
      stepMeets (turns [hostWriteTurn 0x003#12 0x02#8] (receiving .collect 0x58#8 0#8))
        (fun t => t.lock == .none) &&
      stepMeets (turns [.txe] (sending .flush 0#8)) (fun t => t.lock == .none) &&
      stepMeets (turns [.rst ⟨false, false, 0x000#12, 0x00#8⟩] (sending .soh 0#8)) (fun t => t.lock == .none))
      = true := by decide

/-! ## Witnesses: reset, invariants and the step -/

theorem test_witness_RegistersReadTheirResetValues : (0x0FF#12).toNat < 0x100 ∧ (0x016#12).toNat < 0x100 := by decide
theorem test_witness_InvariantIsKeptByEveryStep :
    stepMeets (turns [.rxf] (waiting 0x00#8)) (fun t => t.rx.phase == .collect) = true := by decide
theorem test_witness_InvariantStatesNeverStop :
    (invCheck (sending .payload 0#8) && invCheck (replying .chk) && invCheck (receiving .collect 0x58#8 0#8) &&
      invCheck closing && invCheck State.reset) = true := by decide
theorem test_witness_StepRunsTheDecodedInstruction :
    (State.reset.par.Distinct ∧ State.reset.sched = []) ∧
    decodeBus (busWord ⟨true, false, 0x001#12, 0x64#8⟩) = .ok (.wr 0x001#12 0x64#8) ∧
    decodeCommand 0x01#8 = .ok .cmdOpen ∧
    ((receiving .chkEot 0x05#8 1#8).rx.phase = .chkEot ∧ (receiving .chkEot 0x05#8 1#8).par.eot = 0x04#8 ∧
      (receiving .chkEot 0x05#8 1#8).rx.trl = (receiving .chkEot 0x05#8 1#8).rx.acc ∧
      decodeFrameCmd (receiving .chkEot 0x05#8 1#8).rx.hCmd = .ok .ping) := by decide
/-- A step whose turn is a host write of OPEN, and one whose turn ends a frame, run OPEN and PING. -/
theorem test_step_runs_open_and_ping :
    (meets (step (turns [hostWriteTurn 0x003#12 0x01#8] State.reset)) (fun t => t.life == .running) &&
      meets (step (turns [.rxf] { receiving .chkEot 0x05#8 1#8 with rxIn := [0x04#8] })) (fun t => t.pjob.valid))
      = true := by decide
theorem test_witness_PlacedTableWordRunsNext :
    decodeTableWord 8 0x01 = some .cmdOpen ∧ decodeTableWord 8 0xFF = some .catchall ∧
      decodeTableWord 24 0x200164 = some (.wr 0x001#12 0x64#8) ∧ decodeTableWord 22 0x100400 = some (.rd 0x004#12) ∧
      (meets (step (State.reset.withFetchWord 8 0x01)) (fun t => t.life == .running) &&
        meets (step (State.reset.withFetchWord 8 0xFF)) (fun t => framePend t) &&
        meets (step (State.reset.withFetchWord 24 0x200164)) (fun t => t.station == 0x64#8)) = true := by decide
theorem test_witness_ParametersAndInputsAreNotTheBlocksState :
    stepMeets (turns [.env (.xportOk false)] station64) (fun t => t.inp != station64.inp) = true := by decide

/-! ## Listings (R102) -/

/-- WAITDONE: two reads of STATUS, the second with DONE = 1, then the read of RESULT. -/
theorem test_waitDone_reads_status_then_result :
    Pseudo.turns 2 .waitDone = [.host ⟨false, true, 0x004#12, 0x00#8⟩, .host ⟨false, true, 0x004#12, 0x00#8⟩,
      .host ⟨false, true, 0x005#12, 0x00#8⟩] ∧
    pollEnds 3 [0x05#8, 0x09#8] = true ∧ pollEnds 3 [0x09#8, 0x09#8] = false ∧ pollEnds 3 [0x05#8] = false := by
  decide
theorem test_waitFrame_reads_status_until_pending :
    Pseudo.expand .waitFrame = [.poll 0x004#12 4] ∧ pollEnds 4 [0x09#8, 0x19#8] = true ∧
      pollEnds 4 [0x09#8] = false := by decide
theorem test_sendI16_expands_to_its_writes :
    Pseudo.turns 0 (.sendI16 false 0x32#8 0x10#8 0x1234#32) =
      [hostWriteTurn 0x008#12 0x32#8, hostWriteTurn 0x009#12 0x10#8, hostWriteTurn 0x00C#12 0x34#8,
        hostWriteTurn 0x00D#12 0x12#8, hostWriteTurn 0x003#12 0x06#8] := by decide

end Sys2Proof.Tests
end

section
/-! PROOFS of the family 00_scope.md. First the lemmas about a step, a bus cycle and a validated frame (O57), then
what each agent's turn can do to `done` and RESULT (O22). -/

namespace Sys2Proof.Machine

open Sys2Proof.Safety

/-! ## A step, a bus cycle, a COMMAND byte and a validated frame as the instructions they run -/

/-- A step of a machine with no turn to come (log 2). -/
theorem step_of_no_turn (s : State) (hd : s.par.Distinct) (hs : s.sched = []) : step s = .next s := by
  have hr : runTurn s = .next s := by simp only [runTurn, hs]
  exact (if_pos hd).trans hr

/-- A step whose turn runs the instruction `i` on the state `v` (R269: `i` always answers). -/
theorem step_of_exec (s v : State) (turn : Turn) (rest : List Turn) (i : Instr) (hd : s.par.Distinct)
    (hs : s.sched = turn :: rest) (hi : takeTurn turn { s with sched := rest } = exec i v) :
    ∃ u, exec i v = .next u ∧ step s = .next (observeOutputs s u) := by
  obtain ⟨u, hu⟩ := exec_answers i v
  exact ⟨u, hu, step_of_turn s u turn rest hd hs (hi.trans hu)⟩

theorem takeTurn_host_of_decodeBus (c : HostCycle) (s : State) (i : Instr) (h : decodeBus (busWord c) = .ok i) :
    takeTurn (.host c) s = exec i s := by
  simp only [takeTurn, hostTurn, h]

/-- The word of a write cycle (R80, R100). -/
theorem busWord_write (a : Addr) (d : Byte) : busWord ⟨true, false, a, d⟩ = writeWord a d := by
  simp only [busWord, writeWord, ite_true]
  rfl

/-- The word of a read cycle has D = 0, whatever the host drives (R80, log 16). -/
theorem busWord_read (a : Addr) (d : Byte) : busWord ⟨false, true, a, d⟩ = readWord a := by
  simp only [busWord, readWord, Bool.false_eq_true, ite_false]
  rfl

/-- A host write's turn is the write itself (R80, R266). -/
theorem takeTurn_hostWriteTurn (a : Addr) (v : Byte) (s : State) :
    takeTurn (hostWriteTurn a v) s = .next (hostWrite a v s) :=
  (hostTurn_eq ⟨true, false, a, v⟩ s).trans (if_pos ⟨rfl, rfl⟩)

/-- A COMMAND byte is read as a row of the COMMAND space (R95, R96). -/
theorem encode_of_decodeCommand (v : Byte) (i : Instr) (h : decodeCommand v = .ok i) :
    ∃ b, encode i = .command b := by
  unfold decodeCommand at h
  split at h
  · cases h
  · split at h
    · unfold decodeBroadcastOp at h
      split at h <;> cases h <;> exact ⟨_, rfl⟩
    · unfold decodeUnicastOp at h
      split at h <;> cases h <;> exact ⟨_, rfl⟩

/-- A legal COMMAND byte written runs its row (R261). -/
theorem exec_of_decodeCommand (v : Byte) (i : Instr) (s : State) (h : decodeCommand v = .ok i) :
    exec i s = .next (commandWrite v s) := by
  obtain ⟨b, hb⟩ := encode_of_decodeCommand v i h
  unfold commandWrite commandBody
  rw [h]
  cases i <;> cases hb <;> rfl

/-- The turn of the receiver that takes the EOT of a valid frame runs the row of its command code, the lock being
released (R172, R173). -/
theorem takeTurn_rxf_of_valid_trailer (s : State) (q : List Byte) (i : Instr) (hp : s.rx.phase = .chkEot)
    (hq : s.rxIn = s.par.eot :: q) (ht : s.rx.trl = s.rx.acc) (hi : decodeFrameCmd s.rx.hCmd = .ok i) :
    takeTurn .rxf s = exec i { s with rxIn := q, lock := .none, rx := { s.rx with idle := 0#32 } } := by
  have hv : trailerValid s.par.eot (rxTake s) = true := by simp [trailerValid, ht]
  have hr : rxRelease (rxTake s) = { s with rxIn := q, lock := .none, rx := { s.rx with idle := 0#32 } } := by
    simp [rxRelease, rxTake, hq]
  have hd : dispatch (rxRelease (rxTake s)) = exec i (rxRelease (rxTake s)) := by
    simp only [dispatch, rxRelease, rxTake_rx, hi]
  calc takeTurn .rxf s = rxByteStep s.par.eot (rxTake s) := by simp [takeTurn, rxfTurn, hp, hq, RxPhase.takesBytes]
    _ = rxCheckEot s.par.eot (rxTake s) := by simp only [rxByteStep, rxTake_rx, hp]
    _ = exec i (rxRelease (rxTake s)) := (if_pos hv).trans hd
    _ = _ := by rw [hr]

/-- Settles O57: each clause is the lemma above for its kind of turn. -/
theorem stepRunsTheDecodedInstruction : Obligations.StepRunsTheDecodedInstruction := by
  refine ⟨step_of_no_turn, fun s u turn rest hd hs hu => step_of_turn s u turn rest hd hs hu, ?outputs,
    fun a d => ⟨busWord_write a d, busWord_read a d⟩, ?bus, ?command, ?frame⟩
  case outputs =>
    intro c s u
    exact (observeOutputs_eq s u).trans (congrArg (fun o => { u with obs := o }) (observeOutputs_obs s u))
  case bus =>
    intro s c rest i hd hs hi
    exact step_of_exec s _ _ rest i hd hs (takeTurn_host_of_decodeBus c _ i hi)
  case command =>
    intro s v rest i hd hs hi
    exact step_of_exec s _ _ rest i hd hs
      ((takeTurn_hostWriteTurn addrCommand v _).trans (exec_of_decodeCommand v i _ hi).symm)
  case frame =>
    intro s q rest i hd hs hp hq ht hi
    exact step_of_exec s _ _ rest i hd hs (takeTurn_rxf_of_valid_trailer { s with sched := rest } q i hp hq ht hi)

/-! ## The addresses of COMMAND, STATUS and FRAME_ACK -/

/-- An address is its high four bits and its low byte (R61). -/
theorem addr_eq_of_parts (a : Addr) (hi : BitVec 4) (lo : Byte) (hh : a.extractLsb' 8 4 = hi)
    (hl : a.extractLsb' 0 8 = lo) : a = hi ++ lo := by
  have split : a.extractLsb' 8 4 ++ a.extractLsb' 0 8 = a.extractLsb' 0 12 :=
    BitVec.extractLsb'_append_extractLsb'_eq_extractLsb' rfl
  rw [← hh, ← hl, split, BitVec.extractLsb'_eq_self]

/-- What an address can name (R24, R61): a register of page 0, a byte of a buffer, or nothing. -/
theorem target_cases (a : Addr) :
    (∃ r : Byte, a = 0x0#4 ++ r ∧ target a = registerTarget r) ∨ (∃ i, target a = .txbuf i) ∨
      (∃ i, target a = .rxbuf i) ∨ target a = .reserved := by
  unfold target
  split
  · exact .inl ⟨_, addr_eq_of_parts a _ _ ‹_› rfl, rfl⟩
  · exact .inr (.inl ⟨_, rfl⟩)
  · split
    · exact .inr (.inr (.inr rfl))
    · exact .inr (.inr (.inl ⟨_, rfl⟩))
  · exact .inr (.inr (.inr rfl))

theorem register_of_target_eq_command (r : Byte) (h : registerTarget r = .command) : r = 0x03#8 := by
  unfold registerTarget at h
  split at h <;> cases h
  rfl

theorem register_of_target_eq_status (r : Byte) (h : registerTarget r = .status) : r = 0x04#8 := by
  unfold registerTarget at h
  split at h <;> cases h
  rfl

/-- The only address that names COMMAND (R28). -/
theorem addr_of_target_eq_command (a : Addr) (h : target a = .command) : a = addrCommand := by
  rcases target_cases a with ⟨r, ha, ht⟩ | ⟨i, ht⟩ | ⟨i, ht⟩ | ht <;> rw [ht] at h
  · rw [ha, register_of_target_eq_command r h]
    rfl
  all_goals cases h

/-- The only address that names STATUS (R29). -/
theorem addr_of_target_eq_status (a : Addr) (h : target a = .status) : a = addrStatus := by
  rcases target_cases a with ⟨r, ha, ht⟩ | ⟨i, ht⟩ | ⟨i, ht⟩ | ht <;> rw [ht] at h
  · rw [ha, register_of_target_eq_status r h]
    rfl
  all_goals cases h

/-! ## What a turn can do to `done` and RESULT -/

/-- `done` and RESULT are as before. -/
structure SameReport (s t : State) : Prop where
  done : t.doneFlag = s.doneFlag
  result : t.result = s.result

/-- The steps R46 lets set `done`: an accepted COMMAND write, CTL while closing, the completed flush. -/
def MaySetDone (turn : Turn) (s : State) : Prop :=
  (∃ v, turn = hostWriteTurn 0x003#12 v ∧ cmdBusy s = false) ∨
    (turn = .ctl ∧ s.life = .closing) ∨ (turn = .txe ∧ s.tx.phase = .flush)

/-- The steps but a reset that R46 lets clear `done`: an accepted COMMAND write, a STATUS write with bit 3 = 1. -/
def MayClearDone (turn : Turn) (s : State) : Prop :=
  (∃ v, turn = hostWriteTurn 0x003#12 v ∧ cmdBusy s = false) ∨
    (∃ v : Byte, turn = hostWriteTurn 0x004#12 v ∧ v.getLsbD 3 = true)

/-- What a turn from `s` to `u` that changes `done` or RESULT does to them (R46). -/
inductive ReportChange (turn : Turn) (s u : State) : Prop
  | raised (hd : u.doneFlag = true) (hc : MaySetDone turn s)
  | cleared (hd : u.doneFlag = false) (hr : u.result = s.result) (hc : MayClearDone turn s)
  | reset (hd : u.doneFlag = false) (hc : IsReset turn)

theorem SameReport.refl (s : State) : SameReport s s := ⟨rfl, rfl⟩

/-- An accepted command raises a result or keeps the report (R261). -/
theorem commandBody_report (v : Byte) (s : State) :
    (commandBody v s).doneFlag = true ∨ SameReport s (commandBody v s) := by
  rcases commandBody_cases v s with ⟨c, -, h⟩ | ⟨-, -, -, -, -, h⟩ | ⟨-, -, ⟨-, h⟩ | ⟨-, h⟩⟩ | ⟨-, -, k, b, l, -, h⟩ <;>
    rw [h]
  case inl => exact .inl rfl
  case inr.inl => exact .inl rfl
  all_goals exact .inr ⟨rfl, rfl⟩

/-- A COMMAND write does nothing while busy; else `done` is cleared, or set with a result (R261). -/
theorem commandWrite_report (v : Byte) (s : State) :
    SameReport s (commandWrite v s) ∨
      (cmdBusy s = false ∧ ((commandWrite v s).doneFlag = true ∨
        ((commandWrite v s).doneFlag = false ∧ (commandWrite v s).result = s.result))) := by
  unfold commandWrite
  cases hb : cmdBusy s with
  | true => rw [acceptCommand_busy _ _ hb]; exact .inl (.refl s)
  | false =>
    rw [acceptCommand_idle _ _ hb]
    exact .inr ⟨rfl, (commandBody_report v { s with doneFlag := false }).imp_right fun h => ⟨h.done, h.result⟩⟩

theorem hostWrite_report (a : Addr) (v : Byte) (s : State) :
    SameReport s (hostWrite a v s) ∨ ReportChange (hostWriteTurn a v) s (hostWrite a v s) := by
  rcases hostWrite_cases a v s with ⟨ht, h⟩ | ⟨ht, h⟩ | ⟨-, h⟩ | ⟨i, -, -, h⟩ | h
  · obtain rfl := addr_of_target_eq_command a ht
    rw [h]
    rcases commandWrite_report v s with hk | ⟨hb, hd | ⟨hd, hr⟩⟩
    · exact .inl hk
    · exact .inr (.raised hd (.inl ⟨v, rfl, hb⟩))
    · exact .inr (.cleared hd hr (.inl ⟨v, rfl, hb⟩))
  · obtain rfl := addr_of_target_eq_status a ht
    rw [h]
    rcases statusWrite_cases v s with he | ⟨hv, he⟩ <;> rw [he]
    · exact .inl (.refl s)
    · exact .inr (.cleared rfl rfl (.inr ⟨v, rfl, hv⟩))
  · rw [h]
    rcases frameAckWrite_cases s with ⟨-, he⟩ | ⟨-, he⟩ <;> rw [he] <;> exact .inl ⟨rfl, rfl⟩
  · rw [h]
    exact .inl ⟨rfl, rfl⟩
  · rw [h.rest]
    exact .inl ⟨rfl, rfl⟩

theorem hostTurn_report (c : HostCycle) (s u : State) (h : hostTurn c s = .next u) :
    SameReport s u ∨ ReportChange (.host c) s u := by
  obtain ⟨we, re, a, d⟩ := c
  rw [hostTurn_eq] at h
  split at h
  · rename_i hw
    obtain ⟨rfl, rfl⟩ : we = true ∧ re = false := hw
    cases h
    exact hostWrite_report a d s
  · split at h <;> cases h <;> exact .inl ⟨rfl, rfl⟩

theorem closeDone_report (s : State) :
    SameReport s (closeDone s) ∨ ReportChange .ctl s (closeDone s) := by
  rcases closeDone_cases s with h | ⟨hl, -, -, -, -, h⟩ <;> rw [h]
  · exact .inl (.refl s)
  · exact .inr (.raised rfl (.inr (.inl ⟨rfl, hl⟩)))

theorem rxGrant_report (s : State) : SameReport s (rxGrant s) := by
  unfold rxGrant
  split <;> exact ⟨rfl, rfl⟩

theorem RxByteResult.report {b : Byte} {u t : State} (h : RxByteResult b u t) : SameReport u t := by
  cases h <;> exact ⟨rfl, rfl⟩

/-- No turn of the receiver reports to the host: a frame is not a command's result. -/
theorem rxfTurn_report (s t : State) (h : rxfTurn s = .next t) : SameReport s t := by
  rcases rxfTurn_cases s t h with rfl | ⟨-, -, rfl⟩ | ⟨b, q, -, -, hr⟩
  · exact .refl t
  · exact rxGrant_report s
  · exact ⟨hr.report.done, hr.report.result⟩

/-- The transmit engine reports only when it completes the host job (R233). -/
theorem TxResult.report {s t : State} (h : TxResult s t) :
    SameReport s t ∨ (s.tx.phase = .flush ∧ t.doneFlag = true) := by
  cases h with
  | flushHost hp => exact .inr ⟨hp, rfl⟩
  | _ => exact .inl ⟨rfl, rfl⟩

theorem txeTurn_report (s t : State) (h : txeTurn s = .next t) :
    SameReport s t ∨ ReportChange .txe s t := by
  rcases txeTurn_cases s t h with rfl | hr
  · exact .inl (.refl t)
  · rcases hr.report with hk | ⟨hp, hd⟩
    · exact .inl hk
    · exact .inr (.raised hd (.inr (.inr ⟨rfl, hp⟩)))

theorem idleAbort_report (s : State) : SameReport s (idleAbort s) := by
  rcases idleAbort_cases s with h | ⟨-, -, -, h⟩ <;> rw [h] <;> exact ⟨rfl, rfl⟩

/-- Every turn changes `done` and RESULT only as R46 says. -/
theorem takeTurn_report (turn : Turn) (s u : State) (h : takeTurn turn s = .next u) :
    SameReport s u ∨ ReportChange turn s u := by
  cases turn with
  | host c => exact hostTurn_report c s u h
  | ctl => cases h; exact closeDone_report s
  | rxf => exact .inl (rxfTurn_report s u h)
  | txe => exact txeTurn_report s u h
  | tick => cases h; rw [idleTick_frame]; exact .inl ⟨rfl, rfl⟩
  | idleAbort => cases h; exact .inl (idleAbort_report s)
  | env e => cases h; rw [envTurn_frame]; exact .inl ⟨rfl, rfl⟩
  | rst c => cases h; exact .inr (.reset rfl ⟨c, rfl⟩)

/-- A step keeps `done` and RESULT, or its turn changes them as R46 says. -/
theorem step_report (s t : State) (h : step s = .next t) :
    SameReport s t ∨ ∃ turn rest, s.sched = turn :: rest ∧ ReportChange turn s t := by
  obtain ⟨-, ⟨-, rfl⟩ | ⟨turn, rest, u, hs, hu, rfl⟩⟩ := step_cases s t h
  · exact .inl (.refl t)
  · rcases takeTurn_report turn _ u hu with hk | hc
    · exact .inl ⟨by simpa using hk.done, by simpa using hk.result⟩
    · refine .inr ⟨turn, rest, hs, ?_⟩
      cases hc with
      | raised hd hc => exact .raised (by simpa using hd) hc
      | cleared hd hr hc => exact .cleared (by simpa using hd) (by simpa using hr) hc
      | reset hd hc => exact .reset (by simpa using hd) hc

/-- Settles O22, from what a step can do to `done` and RESULT. -/
theorem doneAndResultChangeOnlyByTheirRules : Obligations.DoneAndResultChangeOnlyByTheirRules := by
  intro s t h
  rcases step_report s t h with hk | ⟨turn, rest, hs, hc⟩
  · exact ⟨fun h0 h1 => by simp [hk.done, h0] at h1, fun h1 h0 => by simp [hk.done, h1] at h0,
      fun hr => absurd hk.result hr⟩
  · cases hc with
    | raised hd hc =>
      exact ⟨fun _ _ => ⟨turn, rest, hs, hc⟩, fun _ h0 => by simp [hd] at h0, fun _ => .inl hd⟩
    | cleared hd hr hc =>
      exact ⟨fun _ h1 => by simp [hd] at h1, fun _ _ => ⟨turn, rest, hs, hc.imp_right .inl⟩, fun hn => absurd hr hn⟩
    | reset hd hc =>
      exact ⟨fun _ h1 => by simp [hd] at h1, fun _ _ => ⟨turn, rest, hs, .inr (.inr hc)⟩,
        fun _ => .inr ⟨turn, rest, hs, hc⟩⟩

end Sys2Proof.Machine
end

section
/-! PROOFS of the family 10_state.md, first part: the machine invariant (R48) is kept by every step (O55).
Each `Inv.x` says that `x` keeps the invariant. -/

namespace Sys2Proof.Machine
open Sys2Proof.Safety

/-- `MachineInv` with a name for each of its parts, so that a step's proof gives the parts its update can touch and
takes the others over by `{ h with .. }`. -/
structure Inv (s : State) : Prop where
  cursor : CursorBound s
  rxLock : ReceiverLock s
  pong : PongPending s
  engine : EngineLock s
  job : JobOfLock s
  direction : DirectionControl s
  idle : NotRunningIdle s
  hostJob : HostJobRuns s
  sentinels : SentinelCount s
  window : WindowCount s
  shape : HostJobShape s
  index : EngineIndex s
  held : DirectionHeld s
  done : DoneNotBusy s
  ctrl : CtrlReserved s
  result : ResultCode s
  dest : FilteredDest s
  answer : PongAnswersPing s
  params : ParamsCovered s
  buffers : BufferForm s

theorem machineInv_iff (s : State) : MachineInv s ↔ Inv s := by
  constructor
  · rintro ⟨⟨a1, a2, a3, a4, a5, a6, a7, a8, a9, a10⟩, b1, b2, b3, b4, b5, b6, b7, b8, b9, b10⟩
    exact ⟨a1, a2, a3, a4, a5, a6, a7, a8, a9, a10, b1, b2, b3, b4, b5, b6, b7, b8, b9, b10⟩
  · rintro ⟨a1, a2, a3, a4, a5, a6, a7, a8, a9, a10, b1, b2, b3, b4, b5, b6, b7, b8, b9, b10⟩
    exact ⟨⟨a1, a2, a3, a4, a5, a6, a7, a8, a9, a10⟩, b1, b2, b3, b4, b5, b6, b7, b8, b9, b10⟩

theorem Inv.observe {s : State} (h : Inv s) (o : Obs) : Inv (observe o s) := { h with }

theorem Inv.clearDone {s : State} (h : Inv s) : Inv { s with doneFlag := false } :=
  { h with done := fun _ => rfl }

theorem Inv.raiseResult {s : State} (h : Inv s) {c : Byte} (hc : c.toNat ≤ 7) (hb : cmdBusy s = false) :
    Inv (raiseResult c s) :=
  { h with done := fun hb' => absurd hb' (by simp [cmdBusy] at hb ⊢; exact hb), result := hc }

theorem Inv.storeTxbuf {s : State} (h : Inv s) {i : Nat} (hi : i ≤ 255) (v : Byte) : Inv (storeTxbuf i v s) :=
  { h with buffers := Memory.store_wf _ _ v (isBufferAddr_txbuf i hi) h.buffers }

theorem Inv.staging {s t : State} (h : Inv s) (hst : SameButStaging s t) : Inv t := by
  have hc := hst.ctrlKept h.ctrl
  rw [hst.rest]
  exact { h with ctrl := hc }

/-! ## Consequences of the invariant -/

theorem toNat_pos_of_ne_zero {b : Byte} (h : b ≠ 0x00#8) : 0 < b.toNat :=
  Nat.pos_of_ne_zero fun hz => h (BitVec.eq_of_toNat_eq hz)

theorem Inv.lock_ne_rx {s : State} (h : Inv s) (hp : ¬ s.rx.phase.holdsLock = true) : s.lock ≠ .rx :=
  mt h.rxLock.1 hp

theorem Inv.no_pong {s : State} (h : Inv s) (hp : s.rx.phase ≠ .pongWait) : s.pjob.valid ≠ true :=
  mt h.pong.1 hp

/-- While the engine does not hold the lock it is idle and `de` is 0. -/
theorem Inv.engine_idle {s : State} (h : Inv s) (he : ¬ EngineHolds s) : s.tx.phase = .idle ∧ s.de = false :=
  ⟨by_contra fun ht => he (h.engine.1 ht), Bool.eq_false_iff.2 fun hd => he (h.direction hd).1⟩

/-- While the receiver holds the lock the engine is idle, `de` is 0 and no reply is pending. -/
theorem Inv.of_holdsLock {s : State} (h : Inv s) (hp : s.rx.phase.holdsLock = true) :
    s.tx.phase = .idle ∧ s.de = false ∧ s.pjob.valid = false := by
  obtain ⟨ht, hd⟩ := h.engine_idle (by simp [EngineHolds, h.rxLock.2 hp])
  exact ⟨ht, hd, Bool.eq_false_iff.2 (h.no_pong fun hx => by rw [hx] at hp; cases hp)⟩

/-! An endpoint whose parser has left RX_SEEK, or whose engine has left T_IDLE, runs or closes. -/

theorem Inv.alive_of_rx {s : State} (h : Inv s) (hp : s.rx.phase ≠ .seek) : ¬ (s.life = .uninit ∨ s.life = .stopped) :=
  fun hl => hp (h.idle hl).1

theorem Inv.alive_of_tx {s : State} (h : Inv s) (hp : s.tx.phase ≠ .idle) : ¬ (s.life = .uninit ∨ s.life = .stopped) :=
  fun hl => hp (h.idle hl).2.1

/-! ## A quiet machine -/

/-- Nothing is received, sent or pending, and no CLOSE is in progress. -/
structure Quiet (s : State) : Prop where
  life : s.life ≠ .closing
  rx : s.rx.phase = .seek
  wcnt : s.rx.wcnt.toNat ≤ 5
  tx : s.tx.phase = .idle
  lock : s.lock = .none
  hjob : s.hjob.valid = false
  pjob : s.pjob.valid = false
  de : s.de = false

/-- For a quiet machine the invariant speaks of the registers, the parameters and the buffers alone. -/
theorem Quiet.inv {s : State} (q : Quiet s) (hn : SentinelCount s) (hc : CtrlReserved s) (hr : ResultCode s)
    (hp : ParamsCovered s) (hb : BufferForm s) : Inv s where
  cursor := by simp [CursorBound, q.rx]
  rxLock := by simp [ReceiverLock, q.rx, q.lock, RxPhase.holdsLock]
  pong := by simp [PongPending, q.rx, q.pjob]
  engine := by simp [EngineLock, EngineHolds, q.tx, q.lock]
  job := by simp [JobOfLock, q.lock]
  direction := by simp [DirectionControl, q.de]
  idle := fun _ => ⟨q.rx, q.tx, q.lock, q.hjob, q.pjob, q.de⟩
  hostJob := by simp [HostJobRuns, q.hjob]
  sentinels := hn
  window := ⟨fun hx => absurd q.rx hx, q.wcnt⟩
  shape := by simp [HostJobShape, q.hjob]
  index := by simp [EngineIndex, q.tx]
  held := fun hx => absurd q.tx hx
  done := by simp [DoneNotBusy, q.hjob, q.life]
  ctrl := hc
  result := hr
  dest := by simp [FilteredDest, q.rx, RxPhase.holdsLock]
  answer := by simp [PongAnswersPing, q.pjob]
  params := hp
  buffers := hb

theorem hardReset_inv {s : State} (hp : ParamsCovered s) (hb : BufferForm s) : Inv (hardReset s) :=
  Quiet.inv ⟨nofun, rfl, Nat.zero_le _, rfl, rfl, rfl, rfl, rfl⟩ (by decide : SentinelCount State.reset)
    (by decide : CtrlReserved State.reset) (Nat.zero_le _) hp hb

theorem Inv.openEndpoint {s : State} (h : Inv s) (hn : s.sohN ≠ 0x00#8) : Inv (openEndpoint s) :=
  Quiet.inv ⟨nofun, rfl, Nat.zero_le _, rfl, rfl, rfl, rfl, rfl⟩
    hn h.ctrl h.result h.params h.buffers

theorem Inv.closeDone {s : State} (h : Inv s) : Inv (closeDone s) := by
  rcases closeDone_cases s with he | ⟨hl, hr, hk, hq, ht, he⟩ <;> rw [he]
  · exact h
  · have hj : s.hjob.valid = false := Bool.eq_false_iff.2 fun hv => by simp [h.hostJob hv] at hl
    exact Quiet.inv ⟨by simp, hr, h.window.2, ht, hk, hj, hq, rfl⟩ h.sentinels h.ctrl (Nat.zero_le _) h.params h.buffers

/-! ## The parser goes back to RX_SEEK -/

/-- The holder of the lock once the receiver has given it up. -/
def lockWithoutRx (l : LockOwner) : LockOwner := if l = .rx then .none else l

theorem lockWithoutRx_of_ne {l : LockOwner} (h : l ≠ .rx) : lockWithoutRx l = l := if_neg h

/-- The parser may seek again from every phase but RX_PONG_WAIT, giving up the lock if it holds it. -/
theorem Inv.seek {s : State} (h : Inv s) (hp : s.rx.phase ≠ .pongWait) {l : LockOwner} (hl : l = lockWithoutRx s.lock)
    {r : Rx} (hr : r.phase = .seek) (hw : r.wcnt.toNat ≤ 5) : Inv { s with lock := l, rx := r } := by
  have hq := h.no_pong hp
  have hrx : l ≠ .rx := by rw [hl]; cases s.lock <;> decide
  have htxh : l = .txh ↔ s.lock = .txh := by rw [hl]; cases s.lock <;> decide
  have htxp : l = .txp ↔ s.lock = .txp := by rw [hl]; cases s.lock <;> decide
  exact { h with
    cursor := by simp [CursorBound, hr]
    rxLock := by simp [ReceiverLock, hr, hrx, RxPhase.holdsLock]
    pong := by simp [PongPending, hr, hq]
    engine := by simpa only [EngineLock, EngineHolds, htxh, htxp] using h.engine
    job := by simpa only [JobOfLock, htxh, htxp] using h.job
    direction := by simpa only [DirectionControl, EngineHolds, htxh, htxp] using h.direction
    idle := fun hi => by
      obtain ⟨-, h2, h3, h4, h5, h6⟩ := h.idle hi
      exact ⟨hr, h2, by rw [hl, h3]; rfl, h4, h5, h6⟩
    window := ⟨fun hx => absurd hr hx, hw⟩
    index := by simpa only [EngineIndex, htxh, htxp] using h.index
    dest := by simp [FilteredDest, hr, RxPhase.holdsLock]
    answer := fun hv => absurd hv hq }

theorem Inv.frameAckWrite {s : State} (h : Inv s) : Inv (frameAckWrite s) := by
  rcases frameAckWrite_cases s with ⟨-, he⟩ | ⟨hp, he⟩ <;> rw [he]
  · exact h
  · have hl := h.lock_ne_rx (by simp [hp, RxPhase.holdsLock])
    exact h.seek (by simp [hp]) (lockWithoutRx_of_ne hl).symm rfl (Nat.zero_le _)

theorem Inv.abandonFrame {s : State} (h : Inv s) (hp : s.rx.phase.abandonedByClose = true) : Inv (abandonFrame s) :=
  h.seek (fun hx => by rw [hx] at hp; cases hp) rfl rfl (Nat.zero_le _)

/-- A frame being received is given up: a wrong ETX, a wrong trailer, or the idle abort. -/
theorem Inv.restart {s : State} (h : Inv s) (hp : s.rx.phase.holdsLock = true) : Inv (rxRestart (rxRelease s)) :=
  h.seek (fun hx => by rw [hx] at hp; cases hp) (by rw [h.rxLock.2 hp]; rfl) rfl (Nat.zero_le _)

/-! ## HOST -/

theorem Inv.beginClose {s : State} (h : Inv s) (hb : s.hjob.valid = false)
    (hd : s.doneFlag = false) : Inv (beginClose s) :=
  { h with
    idle := by simp [NotRunningIdle, Machine.beginClose]
    hostJob := by simp [HostJobRuns, Machine.beginClose, hb]
    done := fun _ => hd }

theorem Inv.acceptSend {s : State} (h : Inv s) {k : JobKind} {b : Bool} {l : Byte} (hr : s.life = .running)
    (hb : s.hjob.valid = false) (hd : s.doneFlag = false) (hc : s.txCmd ≠ cmdCatchall) (hl : TypedLen k l) :
    Inv (acceptSend k b l s) :=
  have ht : s.lock ≠ .txh := fun hx => by simp [h.job.1 hx] at hb
  { h with
    job := ⟨fun hx => absurd hx ht, h.job.2⟩
    idle := by simp [NotRunningIdle, Machine.acceptSend, hr]
    hostJob := fun _ => hr
    shape := fun _ => ⟨hl.1, hl.2.1, hl.2.2, hc⟩
    index := ⟨h.index.1, fun _ hx => absurd hx ht, h.index.2.2⟩
    done := fun _ => hd }

theorem Inv.commandBody {s : State} (h : Inv s) (hb : cmdBusy s = false) (hd : s.doneFlag = false) (v : Byte) :
    Inv (commandBody v s) := by
  have hj := ((cmdBusy_false_iff s).1 hb).1
  rcases commandBody_cases v s with ⟨c, hc, he⟩ | ⟨-, -, hn, -, -, he⟩ | ⟨-, -, ⟨hp, he⟩ | ⟨-, he⟩⟩ |
    ⟨hr, hc, k, b, l, hl, he⟩ <;> rw [he]
  · exact h.raiseResult hc hb
  · exact (h.openEndpoint hn).raiseResult (by decide) (by simp [Machine.openEndpoint, cmdBusy])
  · exact (h.abandonFrame hp).beginClose hj hd
  · exact h.beginClose hj hd
  · exact h.acceptSend hr hj hd hc hl

theorem Inv.commandWrite {s : State} (h : Inv s) (v : Byte) : Inv (commandWrite v s) := by
  unfold Machine.commandWrite
  cases hb : cmdBusy s with
  | true => rwa [acceptCommand_busy _ _ hb]
  | false => rw [acceptCommand_idle _ _ hb]; exact h.clearDone.commandBody hb rfl v

theorem Inv.statusWrite {s : State} (h : Inv s) (v : Byte) : Inv (statusWrite v s) := by
  rcases statusWrite_cases v s with he | ⟨-, he⟩ <;> rw [he]
  · exact h
  · exact h.clearDone

theorem Inv.hostWrite {s : State} (h : Inv s) (a : Addr) (v : Byte) : Inv (hostWrite a v s) := by
  rcases hostWrite_cases a v s with ⟨-, he⟩ | ⟨-, he⟩ | ⟨-, he⟩ | ⟨i, -, -, he⟩ | hst
  · rw [he]; exact h.commandWrite v
  · rw [he]; exact h.statusWrite v
  · rw [he]; exact h.frameAckWrite
  · rw [he]; exact h.storeTxbuf (Nat.le_of_lt_succ i.isLt) v
  · exact h.staging hst

/-- A bus cycle leaves the state, writes, or observes what it reads (R80). -/
theorem hostTurn_cases {c : HostCycle} {s t : State} (h : hostTurn c s = .next t) :
    t = s ∨ t = observe (.read (hostRead c.addr s)) s ∨
      ∃ a v, .host c = hostWriteTurn a v ∧ t = hostWrite a v s := by
  obtain ⟨we, re, a, v⟩ := c
  rw [hostTurn_eq] at h
  split at h
  · rename_i hw
    obtain ⟨rfl, rfl⟩ : we = true ∧ re = false := hw
    cases h
    exact .inr (.inr ⟨a, v, rfl, rfl⟩)
  · split at h <;> cases h
    · exact .inr (.inl rfl)
    · exact .inl rfl

theorem Inv.hostTurn {s t : State} (h : Inv s) (c : HostCycle) (ht : hostTurn c s = .next t) : Inv t := by
  rcases hostTurn_cases ht with rfl | rfl | ⟨a, v, -, rfl⟩
  · exact h
  · exact h.observe _
  · exact h.hostWrite a v

/-! ## RXF and TMR -/

/-- The receiver moves on inside a frame, holding the lock. -/
theorem Inv.inFrame {s : State} (h : Inv s) (hp : s.rx.phase.holdsLock = true) {p : RxPhase} {acc cur trl : Byte}
    {idle : BitVec 32} (hq : p.holdsLock = true)
    (hc : CursorBound { s with rx := { s.rx with phase := p, acc := acc, cursor := cur, trl := trl, idle := idle } }) :
    Inv { s with rx := { s.rx with phase := p, acc := acc, cursor := cur, trl := trl, idle := idle } } := by
  have hs : s.rx.phase ≠ .seek := fun hx => by rw [hx] at hp; cases hp
  have hj := (h.of_holdsLock hp).2.2
  exact { h with
    cursor := hc
    rxLock := ⟨fun _ => hq, fun _ => h.rxLock.2 hp⟩
    pong := ⟨fun hv => by simp [hj] at hv, fun hx => by rw [show p = .pongWait from hx] at hq; cases hq⟩
    idle := fun hl => absurd hl (h.alive_of_rx hs)
    window := ⟨fun _ => h.window.1 hs, h.window.2⟩
    dest := fun _ => h.dest (.inl hp) }

theorem Inv.rxTake {s : State} (h : Inv s) : Inv (rxTake s) := { h with }

theorem Inv.rxShift {s : State} (h : Inv s) (hp : s.rx.phase = .seek) (b : Byte) : Inv (rxShift b s) :=
  { h with window := ⟨fun hx => absurd hp hx, by simp [Machine.rxShift, countUp]; omega⟩ }

theorem Inv.rxHeader {s : State} (h : Inv s) (hp : s.rx.phase = .seek) (hl : s.life = .running) :
    Inv (rxHeader s) := by
  have hk := h.lock_ne_rx (by simp [hp, RxPhase.holdsLock])
  have hj := h.no_pong (by simp [hp])
  exact { h with
    cursor := by simp [CursorBound, Machine.rxHeader]
    rxLock := by simp [ReceiverLock, Machine.rxHeader, hk, RxPhase.holdsLock]
    pong := by simp [PongPending, Machine.rxHeader, hj]
    idle := by simp [NotRunningIdle, Machine.rxHeader, hl]
    window := ⟨fun _ => rfl, by simp [Machine.rxHeader]⟩
    dest := by simp [FilteredDest, Machine.rxHeader, RxPhase.holdsLock]
    answer := fun hv => absurd hv hj }

/-- The frame is accepted at the grant: the receiver holds the lock with nothing collected yet (R168). -/
theorem Inv.rxGrant {s : State} (h : Inv s) (hp : s.rx.phase = .waitLock) (hl : s.lock = .none) : Inv (rxGrant s) := by
  have hw := h.window.1 (by simp [hp])
  unfold Machine.rxGrant
  split
  · obtain ⟨ht, hd⟩ := h.engine_idle (by simp [EngineHolds, hl])
    have hj := h.no_pong (by simp [hp])
    exact { h with
      cursor := by
        by_cases hz : s.rx.hLen = 0x00#8
        · simp [CursorBound, hz]
        · simpa [CursorBound, hz] using toNat_pos_of_ne_zero hz
      rxLock := by simp only [ReceiverLock]; split <;> simp [RxPhase.holdsLock]
      pong := by simp only [PongPending]; split <;> simp [hj]
      engine := by simp [EngineLock, EngineHolds, ht]
      job := by simp [JobOfLock]
      direction := by simp [DirectionControl, hd]
      idle := fun hx => absurd hx (h.alive_of_rx (by simp [hp]))
      window := ⟨fun _ => hw, h.window.2⟩
      index := by simp [EngineIndex, ht]
      dest := fun _ => ‹_› }
  · exact h.seek (by simp [hp]) (by rw [hl]; rfl) rfl h.window.2

/-- A valid frame leaves the lock and is handed on: to the host, or to the reply a PING asks for (R172, R173). -/
theorem Inv.deliver {s : State} (h : Inv s) (hp : s.rx.phase = .chkEot) : Inv (deliverFrame (rxRelease s)) := by
  obtain ⟨ht, hd, hj⟩ := h.of_holdsLock (by rw [hp]; rfl)
  exact { h with
    cursor := ⟨nofun, fun _ => h.cursor.2 (.inr (.inr (.inl hp)))⟩
    rxLock := by simp [ReceiverLock, deliverFrame, rxRelease, RxPhase.holdsLock]
    pong := by simp [PongPending, deliverFrame, rxRelease, hj]
    engine := by simp [EngineLock, EngineHolds, deliverFrame, rxRelease, ht]
    job := by simp [JobOfLock, deliverFrame, rxRelease]
    direction := by simp [DirectionControl, deliverFrame, rxRelease, hd]
    idle := fun hx => absurd hx (h.alive_of_rx (by simp [hp]))
    window := ⟨fun _ => h.window.1 (by simp [hp]), h.window.2⟩
    index := by simp [EngineIndex, deliverFrame, rxRelease, ht]
    dest := fun _ => h.dest (.inl (by rw [hp]; rfl)) }

theorem Inv.queuePong {s : State} (h : Inv s) (hp : s.rx.phase = .chkEot) (hc : s.rx.hCmd = cmdPing) :
    Inv (queuePong (rxRelease s)) :=
  have hd := h.deliver hp
  { hd with
    cursor := ⟨nofun, fun _ => h.cursor.2 (.inr (.inr (.inl hp)))⟩
    rxLock := by simp [ReceiverLock, Machine.queuePong, rxRelease, RxPhase.holdsLock]
    pong := by simp [PongPending, Machine.queuePong]
    job := by simp [JobOfLock, Machine.queuePong, rxRelease]
    idle := fun hx => absurd hx (h.alive_of_rx (by simp [hp]))
    window := ⟨fun _ => h.window.1 (by simp [hp]), h.window.2⟩
    index := ⟨hd.index.1, hd.index.2.1, nofun⟩
    dest := fun _ => h.dest (.inl (by rw [hp]; rfl))
    answer := fun _ => ⟨rfl, rfl, rfl, hc⟩ }

theorem Inv.collect {s : State} (h : Inv s) (hp : s.rx.phase = .collect) (b : Byte) :
    Inv (storeRxbuf s.rx.cursor.toNat b
      { s with rx := { s.rx with
          acc := s.rx.acc + b, cursor := s.rx.cursor + 1#8, idle := 0#32
          phase := if s.rx.cursor + 1#8 = s.rx.hLen then .chkEtx else .collect } }) := by
  have hlt := h.cursor.1 hp
  have hm := h.inFrame (p := if s.rx.cursor + 1#8 = s.rx.hLen then .chkEtx else .collect) (acc := s.rx.acc + b)
    (cur := s.rx.cursor + 1#8) (trl := s.rx.trl) (idle := 0#32) (by rw [hp]; rfl) (by split <;> rfl) (by
      simp only [CursorBound]
      split
      · exact ⟨nofun, fun _ => ‹_›⟩
      · refine ⟨fun _ => ?_, fun hx => by simp at hx⟩
        bv_omega)
  exact { hm with buffers := Memory.store_wf _ _ b (isBufferAddr_rxbuf _ (by omega)) h.buffers }

theorem Inv.rxByte {b : Byte} {u t : State} (h : Inv u) (hr : RxByteResult b u t) : Inv t := by
  cases hr with
  | discard => exact h
  | header hp hl => exact h.rxHeader hp hl
  | shift hp => exact h.rxShift hp b
  | collect hp => exact h.collect hp b
  | etxOk hp =>
    exact h.inFrame (by rw [hp]; rfl) rfl ⟨nofun, fun _ => h.cursor.2 (.inl hp)⟩
  | etxBad hp => exact h.restart (by rw [hp]; rfl)
  | readChk hp =>
    exact h.inFrame (by rw [hp]; rfl) rfl ⟨nofun, fun _ => h.cursor.2 (.inr (.inl hp))⟩
  | eotPing hp _ _ hc => exact h.queuePong hp hc
  | eotDeliver hp => exact h.deliver hp
  | eotBad hp => exact h.restart (by rw [hp]; rfl)

theorem Inv.rxfTurn {s t : State} (h : Inv s) (ht : rxfTurn s = .next t) : Inv t := by
  rcases rxfTurn_cases s t ht with rfl | ⟨hp, hl, rfl⟩ | ⟨b, q, -, -, hr⟩
  · exact h
  · exact h.rxGrant hp hl
  · exact h.rxTake.rxByte hr

theorem Inv.idleTick {s : State} (h : Inv s) : Inv (idleTick s) := by
  rw [idleTick_frame]
  exact { h with }

theorem Inv.idleAbort {s : State} (h : Inv s) : Inv (idleAbort s) := by
  rcases idleAbort_cases s with he | ⟨hp, -, -, he⟩ <;> rw [he]
  · exact h
  · exact h.restart hp

/-! ## TXE -/

theorem Inv.txStart {s : State} (h : Inv s) {owner : LockOwner} (hl : s.lock = .none)
    (hj : owner = .txh ∧ s.hjob.valid = true ∨ owner = .txp ∧ s.pjob.valid = true) : Inv (txStart owner s) := by
  have ho : owner = .txh ∨ owner = .txp := hj.imp And.left And.left
  have hrx : ¬ s.rx.phase.holdsLock = true := fun hx => by simp [h.rxLock.2 hx] at hl
  have hlife : ¬ (s.life = .uninit ∨ s.life = .stopped) := fun hx => by
    obtain ⟨-, -, -, hh, hq, -⟩ := h.idle hx
    simp [hh, hq] at hj
  exact { h with
    rxLock := ⟨fun hx => by simp [show owner = .rx from hx] at ho, fun hx => absurd hx hrx⟩
    engine := ⟨fun _ => ho, fun _ => nofun⟩
    job := by
      rcases hj with ⟨rfl, hv⟩ | ⟨rfl, hv⟩
      · exact ⟨fun _ => hv, nofun⟩
      · exact ⟨nofun, fun _ => hv⟩
    direction := fun hd => ⟨ho, hd⟩
    idle := fun hx => absurd hx hlife
    index := ⟨fun _ => toNat_pos_of_ne_zero h.sentinels, nofun, nofun⟩
    held := fun _ => rfl }

/-- The engine moves on inside a frame: only its index has to be looked at. -/
theorem Inv.txMove {s : State} (h : Inv s) (hp : s.tx.phase ≠ .idle) {x : Tx} (hx : x.phase ≠ .idle)
    (hi : EngineIndex { s with tx := x }) : Inv { s with tx := x } :=
  { h with
    engine := ⟨fun _ => h.engine.1 hp, fun _ => hx⟩
    idle := fun hl => absurd hl (h.alive_of_tx hp)
    index := hi
    held := fun _ => h.held hp }

/-- The engine's index in a phase that counts nothing. -/
theorem engineIndex_of_uncounted {s : State} (h1 : s.tx.phase ≠ .soh) (h2 : s.tx.phase ≠ .payload) : EngineIndex s :=
  ⟨fun hx => absurd hx h1, fun hx => absurd hx h2, fun hx => absurd hx h2⟩

/-- The lengths `tx.idx` runs to in T_PAYLOAD, as the current job's length. -/
theorem engineIndex_payload_iff {s : State} {x : Tx} (hp : x.phase = .payload) {j : Job}
    (hj : currentJob s = some j) : EngineIndex { s with tx := x } ↔ x.idx.toNat < j.len.toNat := by
  unfold currentJob at hj
  cases hl : s.lock <;> rw [hl] at hj <;> cases hj <;> simp [EngineIndex, hp]

theorem Inv.txSoh {s : State} (h : Inv s) (hp : s.tx.phase = .soh) : Inv (txSohStep s) := by
  have hlt := h.index.1 hp
  refine (h.txMove (by simp [hp]) (x := { s.tx with
    idx := if s.tx.idx + 1#8 = s.cfg.sohN then 0x00#8 else s.tx.idx + 1#8
    phase := if s.tx.idx + 1#8 = s.cfg.sohN then .dest else .soh }) (by dsimp only; split <;> nofun) ?_).observe _
  by_cases he : s.tx.idx + 1#8 = s.cfg.sohN
  · simp [EngineIndex, he]
  · simp only [EngineIndex, he, if_false]
    refine ⟨fun _ => ?_, nofun, nofun⟩
    bv_omega

theorem Inv.txStx {s : State} (h : Inv s) (hp : s.tx.phase = .stx) {j : Job} (hj : currentJob s = some j) :
    Inv (txStxStep j s) := by
  refine (h.txMove (by simp [hp]) (x := { s.tx with
    idx := 0x00#8, phase := if j.len = 0x00#8 then .etx else .payload }) (by dsimp only; split <;> nofun) ?_).observe _
  by_cases he : j.len = 0x00#8
  · exact engineIndex_of_uncounted (by simp [he]) (by simp [he])
  · exact (engineIndex_payload_iff (if_neg he) hj).2 (toNat_pos_of_ne_zero he)

theorem Inv.txPayload {s : State} (h : Inv s) (hp : s.tx.phase = .payload) {j : Job} (hj : currentJob s = some j)
    (b : Byte) : Inv (txPayloadSend j b s) := by
  have hlt := (engineIndex_payload_iff hp hj).1 h.index
  refine (h.txMove (by simp [hp]) (x := { s.tx with
    acc := s.tx.acc + b, idx := s.tx.idx + 1#8
    phase := if s.tx.idx + 1#8 = j.len then .etx else .payload }) (by dsimp only; split <;> nofun) ?_).observe _
  by_cases he : s.tx.idx + 1#8 = j.len
  · exact engineIndex_of_uncounted (by simp [he]) (by simp [he])
  · exact (engineIndex_payload_iff (if_neg he) hj).2 (by bv_omega)

/-- A byte of the engine after which it counts nothing. -/
theorem Inv.txSend {s : State} (h : Inv s) (hp : s.tx.phase ≠ .idle) (b acc : Byte) {p : TxPhase} (hi : p ≠ .idle)
    (h1 : p ≠ .soh) (h2 : p ≠ .payload) : Inv (txPut b (txGo p acc s)) :=
  (h.txMove hp (x := { s.tx with phase := p, acc := acc }) hi (engineIndex_of_uncounted h1 h2)).observe _

theorem Inv.finishHostJob {s : State} (h : Inv s) (hp : s.tx.phase = .flush) (hl : s.lock = .txh) :
    Inv (finishHostJob { s with de := false, tx := { s.tx with phase := .idle } }) := by
  have hlife := h.hostJob (h.job.1 hl)
  have hrx : ¬ s.rx.phase.holdsLock = true := fun hx => by simp [h.rxLock.2 hx] at hl
  exact { h with
    rxLock := ⟨nofun, fun hx => absurd hx hrx⟩
    engine := ⟨fun hx => absurd rfl hx, nofun⟩
    job := ⟨nofun, nofun⟩
    direction := nofun
    idle := fun hx => absurd hx (h.alive_of_tx (by simp [hp]))
    hostJob := nofun
    shape := nofun
    index := engineIndex_of_uncounted nofun nofun
    held := fun hx => absurd rfl hx
    done := by simp [DoneNotBusy, Machine.finishHostJob, hlife]
    result := Nat.zero_le _ }

/-- In T_FLUSH with the lock not the host job's, the PONG is being flushed and the parser waits for it. -/
theorem Inv.pong_flush {s : State} (h : Inv s) (hp : s.tx.phase = .flush) (hl : s.lock ≠ .txh) :
    s.lock = .txp ∧ s.rx.phase = .pongWait := by
  have ho : s.lock = .txp := (h.engine.1 (by simp [hp])).resolve_left hl
  exact ⟨ho, h.pong.1 (h.job.2 ho)⟩

theorem Inv.finishPongJob {s : State} (h : Inv s) (hp : s.tx.phase = .flush) (hl : s.lock ≠ .txh) :
    Inv (finishPongJob { s with de := false, tx := { s.tx with phase := .idle } }) := by
  obtain ⟨-, hr⟩ := h.pong_flush hp hl
  exact { h with
    cursor := ⟨nofun, fun _ => h.cursor.2 (by simp [hr])⟩
    rxLock := ⟨nofun, nofun⟩
    pong := ⟨nofun, nofun⟩
    engine := ⟨fun hx => absurd rfl hx, nofun⟩
    job := ⟨nofun, nofun⟩
    direction := nofun
    idle := fun hx => absurd hx (h.alive_of_tx (by simp [hp]))
    window := ⟨fun _ => h.window.1 (by simp [hr]), h.window.2⟩
    index := engineIndex_of_uncounted nofun nofun
    held := fun hx => absurd rfl hx
    dest := fun _ => h.dest (by simp [hr])
    answer := nofun }

theorem Inv.tx {s t : State} (h : Inv s) (hr : TxResult s t) : Inv t := by
  cases hr with
  | grantPong _ hl hj => exact h.txStart hl (.inr ⟨rfl, hj⟩)
  | grantHost _ hl hj => exact h.txStart hl (.inl ⟨rfl, hj⟩)
  | soh hp => exact h.txSoh hp
  | stx hp j hj => exact h.txStx hp hj
  | payload hp j hj b => exact h.txPayload hp hj b
  | flushHost hp _ hl => exact h.finishHostJob hp hl
  | flushPong hp _ hl => exact h.finishPongJob hp hl
  | _ hp => exact h.txSend (by simp [hp]) _ _ nofun nofun nofun

theorem Inv.txeTurn {s t : State} (h : Inv s) (ht : txeTurn s = .next t) : Inv t := by
  rcases txeTurn_cases s t ht with rfl | hr
  · exact h
  · exact h.tx hr

/-! ## Every step -/

theorem Inv.takeTurn {s u : State} (h : Inv s) (turn : Turn) (hu : takeTurn turn s = .next u) : Inv u := by
  cases turn with
  | host c => exact h.hostTurn c hu
  | ctl => cases hu; exact h.closeDone
  | rxf => exact h.rxfTurn hu
  | txe => exact h.txeTurn hu
  | tick => cases hu; exact h.idleTick
  | idleAbort => cases hu; exact h.idleAbort
  | env e => cases hu; rw [envTurn_frame]; exact { h with }
  | rst c => cases hu; exact hardReset_inv h.params h.buffers

theorem Inv.step {s t : State} (h : Inv s) (ht : step s = .next t) : Inv t := by
  obtain ⟨-, ⟨-, rfl⟩ | ⟨turn, rest, u, -, hu, rfl⟩⟩ := step_cases s t ht
  · exact h
  · have hs : Inv { s with sched := rest } := { h with }
    have hi : Inv u := hs.takeTurn turn hu
    rw [observeOutputs_eq]
    exact { hi with }

/-- Settles O55. -/
theorem invariantIsKeptByEveryStep : Obligations.InvariantIsKeptByEveryStep :=
  fun s t h ht => (machineInv_iff t).2 (((machineInv_iff s).1 h).step ht)
end Sys2Proof.Machine
end

section
/-! PROOFS of the family 10_state.md, second part: what each agent's turn leaves unchanged, and from it the owners of
the parameters and inputs (O59), of `life` and the configuration (O21) and of the buffers (O34, O18); reset (O52, O53,
O54). -/

namespace Sys2Proof.Machine
open Sys2Proof.Safety

/-! ## What each agent may touch -/

theorem RxByteResult.frame {b : Byte} {u t : State} (h : RxByteResult b u t) :
    t = { u with rx := t.rx, lock := t.lock, pjob := t.pjob, buf := t.buf } := by
  cases h <;> rfl

/-- The receiver's fields: the parser, the lock, the PONG job, RXBUF and the offered bytes. -/
theorem rxfTurn_frame {s t : State} (h : rxfTurn s = .next t) :
    t = { s with rx := t.rx, lock := t.lock, pjob := t.pjob, buf := t.buf, rxIn := t.rxIn } := by
  rcases rxfTurn_cases s t h with rfl | ⟨-, -, rfl⟩ | ⟨b, q, -, -, hr⟩
  · rfl
  · unfold rxGrant
    split <;> rfl
  · rw [hr.frame]; rfl

theorem TxResult.frame {s t : State} (h : TxResult s t) :
    t = { s with rx := t.rx, tx := t.tx, lock := t.lock, hjob := t.hjob, pjob := t.pjob, de := t.de,
                 result := t.result, doneFlag := t.doneFlag, obs := t.obs } := by
  cases h <;> rfl

/-- The engine's fields; of the parser only the phase, when a PONG is flushed. -/
theorem txeTurn_frame {s t : State} (h : txeTurn s = .next t) :
    t = { s with rx := t.rx, tx := t.tx, lock := t.lock, hjob := t.hjob, pjob := t.pjob, de := t.de,
                 result := t.result, doneFlag := t.doneFlag, obs := t.obs } := by
  rcases txeTurn_cases s t h with rfl | hr
  · rfl
  · exact hr.frame

theorem idleAbort_frame (s : State) :
    idleAbort s = { s with rx := (idleAbort s).rx, lock := (idleAbort s).lock } := by
  rcases idleAbort_cases s with h | ⟨-, -, -, h⟩
  · rw [h]
  · rw [h]; rfl

theorem closeDone_frame (s : State) :
    closeDone s = { s with life := (closeDone s).life, de := (closeDone s).de, result := (closeDone s).result,
                           doneFlag := (closeDone s).doneFlag } := by
  rcases closeDone_cases s with h | ⟨-, -, -, -, -, h⟩
  · rw [h]
  · rw [h]; rfl

theorem commandBody_frame (v : Byte) (s : State) :
    commandBody v s = { s with
      life := (commandBody v s).life, cfg := (commandBody v s).cfg, result := (commandBody v s).result
      doneFlag := (commandBody v s).doneFlag, rx := (commandBody v s).rx, tx := (commandBody v s).tx
      hjob := (commandBody v s).hjob, pjob := (commandBody v s).pjob, lock := (commandBody v s).lock
      de := (commandBody v s).de } := by
  rcases commandBody_cases v s with ⟨c, -, h⟩ | ⟨-, -, -, -, -, h⟩ | ⟨-, -, ⟨-, h⟩ | ⟨-, h⟩⟩ | ⟨-, -, k, b, l, -, h⟩ <;>
    rw [h] <;> rfl

/-- What no COMMAND write touches: the staging registers, the buffers and what is outside the block. -/
theorem commandWrite_frame (v : Byte) (s : State) :
    commandWrite v s = { s with
      life := (commandWrite v s).life, cfg := (commandWrite v s).cfg, result := (commandWrite v s).result
      doneFlag := (commandWrite v s).doneFlag, rx := (commandWrite v s).rx, tx := (commandWrite v s).tx
      hjob := (commandWrite v s).hjob, pjob := (commandWrite v s).pjob, lock := (commandWrite v s).lock
      de := (commandWrite v s).de } := by
  unfold commandWrite
  cases hb : cmdBusy s with
  | true => rw [acceptCommand_busy _ _ hb]
  | false => rw [acceptCommand_idle _ _ hb]; exact commandBody_frame v _

/-! ## Parameters, inputs and the name of the power-up -/

/-- What belongs to no agent of the block. -/
structure SameOutside (s t : State) : Prop where
  par : t.par = s.par
  inp : t.inp = s.inp
  powerUp : t.powerUp = s.powerUp

theorem hostWrite_sameOutside (a : Addr) (v : Byte) (s : State) : SameOutside s (hostWrite a v s) := by
  rcases hostWrite_cases a v s with ⟨-, h⟩ | ⟨-, h⟩ | ⟨-, h⟩ | ⟨i, -, -, h⟩ | h
  · rw [h, commandWrite_frame]; exact ⟨rfl, rfl, rfl⟩
  · rcases statusWrite_cases v s with he | ⟨-, he⟩ <;> rw [h, he] <;> exact ⟨rfl, rfl, rfl⟩
  · rcases frameAckWrite_cases s with ⟨-, he⟩ | ⟨-, he⟩ <;> rw [h, he] <;> exact ⟨rfl, rfl, rfl⟩
  · rw [h]; exact ⟨rfl, rfl, rfl⟩
  · rw [h.rest]; exact ⟨rfl, rfl, rfl⟩

/-- No turn changes a parameter or the power-up's name, and only the environment's an input level. -/
theorem takeTurn_outside {turn : Turn} {s u : State} (h : takeTurn turn s = .next u) :
    u.par = s.par ∧ u.powerUp = s.powerUp ∧ (u.inp = s.inp ∨ ∃ e, turn = .env e) := by
  cases turn with
  | host c =>
    rcases hostTurn_cases h with rfl | rfl | ⟨a, v, -, rfl⟩
    · exact ⟨rfl, rfl, .inl rfl⟩
    · exact ⟨rfl, rfl, .inl rfl⟩
    · have hk := hostWrite_sameOutside a v s
      exact ⟨hk.par, hk.powerUp, .inl hk.inp⟩
  | ctl => cases h; rw [closeDone_frame]; exact ⟨rfl, rfl, .inl rfl⟩
  | rxf => rw [rxfTurn_frame h]; exact ⟨rfl, rfl, .inl rfl⟩
  | txe => rw [txeTurn_frame h]; exact ⟨rfl, rfl, .inl rfl⟩
  | tick => cases h; rw [idleTick_frame]; exact ⟨rfl, rfl, .inl rfl⟩
  | idleAbort => cases h; rw [idleAbort_frame]; exact ⟨rfl, rfl, .inl rfl⟩
  | env e => cases h; rw [envTurn_frame]; exact ⟨rfl, rfl, .inr ⟨e, rfl⟩⟩
  | rst c => cases h; exact ⟨rfl, rfl, .inl rfl⟩

/-- Nothing is observed of the outputs when none of them changes. -/
theorem observeOutputs_of_same {s t : State} (hi : irqLevel s = irqLevel t) (hf : flushReqLevel s = flushReqLevel t)
    (hd : s.de = t.de) : observeOutputs s t = t := by
  simp [observeOutputs, observeIf, hi, hf, hd]

/-- A step whose turn is the environment's changes the input levels and the offered bytes alone. -/
theorem step_env {s t : State} {e : EnvEvent} {rest : List Turn} (h : step s = .next t)
    (hs : s.sched = .env e :: rest) :
    t = { s with inp := t.inp, rxIn := t.rxIn, sched := rest } := by
  obtain ⟨-, ⟨hn, -⟩ | ⟨turn, rest', u, hs', hu, rfl⟩⟩ := step_cases s t h
  · rw [hn] at hs; cases hs
  · rw [hs] at hs'
    cases hs'
    cases hu
    have ho : observeOutputs s (envTurn e { s with sched := rest }) = envTurn e { s with sched := rest } := by
      cases e <;> exact observeOutputs_of_same rfl rfl rfl
    rw [ho]
    exact envTurn_frame e { s with sched := rest }

/-- Settles O59. -/
theorem parametersAndInputsAreNotTheBlocksState : Obligations.ParametersAndInputsAreNotTheBlocksState := by
  intro s t h
  have henv : ∀ e rest, s.sched = .env e :: rest → t = { s with inp := t.inp, rxIn := t.rxIn, sched := rest } :=
    fun e rest hs => step_env h hs
  obtain ⟨-, ⟨-, rfl⟩ | ⟨turn, rest, u, hs, hu, rfl⟩⟩ := step_cases s t h
  · exact ⟨rfl, rfl, fun hn => absurd rfl hn, henv⟩
  · obtain ⟨hp, hw, hi⟩ := takeTurn_outside hu
    refine ⟨by simpa using hp, by simpa using hw, fun hn => ?_, henv⟩
    obtain ⟨e, rfl⟩ := hi.resolve_left (by simpa using hn)
    exact ⟨e, rest, hs⟩

/-! ## `life` and the latched configuration -/

/-- `life` and the latched configuration are as before. -/
structure SameLife (s t : State) : Prop where
  life : t.life = s.life
  cfg : t.cfg = s.cfg

/-- What a turn from `s` to `u` that changes `life` or the latched configuration is (R23, R38). -/
inductive LifeChange (turn : Turn) (s u : State) : Prop
  | opened (ht : turn = hostWriteTurn 0x003#12 0x01#8) (hl : s.life ≠ .running) (hu : u.life = .running)
      (hc : u.cfg = { station := s.station, sohN := s.sohN, deEn := s.ctrl.getLsbD 0 })
  | closes (ht : turn = hostWriteTurn 0x003#12 0x02#8) (hl : s.life = .running) (hu : u.life = .closing)
      (hc : u.cfg = s.cfg)
  | stopped (ht : turn = .ctl) (hl : s.life = .closing) (hu : u.life = .stopped) (hc : u.cfg = s.cfg)
  | reset (ht : IsReset turn) (hu : u.life = .uninit)
      (hc : u.cfg = { station := 0x00#8, sohN := 0x01#8, deEn := false })

theorem SameLife.refl (s : State) : SameLife s s := ⟨rfl, rfl⟩

/-- A COMMAND write changes `life` only by a successful OPEN or an accepted CLOSE (R262, R263). -/
theorem commandWrite_life (v : Byte) (s : State) :
    SameLife s (commandWrite v s) ∨ LifeChange (hostWriteTurn addrCommand v) s (commandWrite v s) := by
  unfold commandWrite
  cases hb : cmdBusy s with
  | true => rw [acceptCommand_busy _ _ hb]; exact .inl (.refl s)
  | false =>
    rw [acceptCommand_idle _ _ hb]
    rcases commandBody_cases v { s with doneFlag := false } with ⟨c, -, h⟩ | ⟨rfl, hl, -, -, -, h⟩ |
      ⟨rfl, hl, ⟨-, h⟩ | ⟨-, h⟩⟩ | ⟨-, -, k, b, l, -, h⟩ <;> rw [h]
    · exact .inl ⟨rfl, rfl⟩
    · exact .inr (.opened rfl hl rfl rfl)
    · exact .inr (.closes rfl hl rfl rfl)
    · exact .inr (.closes rfl hl rfl rfl)
    · exact .inl ⟨rfl, rfl⟩

theorem hostWrite_life (a : Addr) (v : Byte) (s : State) :
    SameLife s (hostWrite a v s) ∨ LifeChange (hostWriteTurn a v) s (hostWrite a v s) := by
  rcases hostWrite_cases a v s with ⟨ht, h⟩ | ⟨-, h⟩ | ⟨-, h⟩ | ⟨i, -, -, h⟩ | h
  · obtain rfl := addr_of_target_eq_command a ht
    rw [h]
    exact commandWrite_life v s
  · rcases statusWrite_cases v s with he | ⟨-, he⟩ <;> rw [h, he] <;> exact .inl ⟨rfl, rfl⟩
  · rcases frameAckWrite_cases s with ⟨-, he⟩ | ⟨-, he⟩ <;> rw [h, he] <;> exact .inl ⟨rfl, rfl⟩
  · rw [h]; exact .inl ⟨rfl, rfl⟩
  · rw [h.rest]; exact .inl ⟨rfl, rfl⟩

theorem takeTurn_life {turn : Turn} {s u : State} (h : takeTurn turn s = .next u) :
    SameLife s u ∨ LifeChange turn s u := by
  cases turn with
  | host c =>
    rcases hostTurn_cases h with rfl | rfl | ⟨a, v, hc, rfl⟩
    · exact .inl (.refl _)
    · exact .inl ⟨rfl, rfl⟩
    · rw [hc]; exact hostWrite_life a v s
  | ctl =>
    cases h
    rcases closeDone_cases s with he | ⟨hl, -, -, -, -, he⟩ <;> rw [he]
    · exact .inl (.refl s)
    · exact .inr (.stopped rfl hl rfl rfl)
  | rxf => rw [rxfTurn_frame h]; exact .inl ⟨rfl, rfl⟩
  | txe => rw [txeTurn_frame h]; exact .inl ⟨rfl, rfl⟩
  | tick => cases h; rw [idleTick_frame]; exact .inl ⟨rfl, rfl⟩
  | idleAbort => cases h; rw [idleAbort_frame]; exact .inl ⟨rfl, rfl⟩
  | env e => cases h; rw [envTurn_frame]; exact .inl ⟨rfl, rfl⟩
  | rst c => cases h; exact .inr (.reset ⟨c, rfl⟩ rfl rfl)

/-- Settles O21. -/
theorem lifeAndConfigurationChangeOnlyByTheirRules : Obligations.LifeAndConfigurationChangeOnlyByTheirRules := by
  intro s t h
  obtain ⟨-, ⟨-, rfl⟩ | ⟨turn, rest, u, hs, hu, rfl⟩⟩ := step_cases s t h
  · exact ⟨fun hn => absurd rfl hn, fun hn => absurd rfl hn⟩
  · simp only [observeOutputs_life, observeOutputs_cfg]
    rcases takeTurn_life hu with hk | hc
    · exact ⟨fun hn => absurd hk.life hn, fun hn => absurd hk.cfg hn⟩
    · cases hc with
      | opened ht hl hu hc =>
        exact ⟨fun _ => ⟨turn, rest, hs, .inl ⟨ht, hl, hu⟩⟩, fun _ => ⟨turn, rest, hs, .inl ⟨ht, hl, hu, hc⟩⟩⟩
      | closes ht hl hu hc =>
        exact ⟨fun _ => ⟨turn, rest, hs, .inr (.inl ⟨ht, hl, hu⟩)⟩, fun hn => absurd hc hn⟩
      | stopped ht hl hu hc =>
        exact ⟨fun _ => ⟨turn, rest, hs, .inr (.inr (.inl ⟨ht, hl, hu⟩))⟩, fun hn => absurd hc hn⟩
      | reset ht hu hc =>
        exact ⟨fun _ => ⟨turn, rest, hs, .inr (.inr (.inr ⟨ht, hu⟩))⟩, fun _ => ⟨turn, rest, hs, .inr ⟨ht, hc⟩⟩⟩

/-! ## The buffers -/

/-- Page 1 of the address space is TXBUF (R61). -/
theorem page1_eq_txbufAddr (i : Byte) : (0x1#4 ++ i : Addr) = BitVec.ofNat 12 (txbufBase + i.toNat) := by
  apply BitVec.eq_of_toNat_eq
  have hi := i.isLt
  rw [BitVec.toNat_append, ← Nat.shiftLeft_add_eq_or_of_lt hi]
  simp only [BitVec.toNat_ofNat, txbufBase]
  omega

/-- The only address that names a TXBUF byte (R40). -/
theorem addr_of_target_eq_txbuf (a : Addr) (i : Byte) (h : target a = .txbuf i) :
    a = BitVec.ofNat 12 (txbufBase + i.toNat) := by
  unfold target at h
  split at h
  · unfold registerTarget at h
    split at h <;> cases h
  · cases h
    exact (addr_eq_of_parts a 0x1#4 _ ‹_› rfl).trans (page1_eq_txbufAddr _)
  · split at h <;> cases h
  · cases h

/-- What a buffer address reads after a store. -/
theorem readBuf_of_store {s t : State} {a : Nat} {v : Byte} (hb : t.buf = Memory.store s.buf a v)
    (hp : t.powerUp = s.powerUp) (x : Nat) : readBuf t x = if x = a then v else readBuf s x := by
  unfold readBuf
  rw [hb, hp]
  split
  · subst x
    rw [Memory.lookup_store_same]
    rfl
  · rw [Memory.lookup_store_other _ _ _ _ ‹_›]

/-- A host write stores only to TXBUF, and only while not busy (R266). -/
theorem hostWrite_buf (a : Addr) (v : Byte) (s : State) :
    (hostWrite a v s).buf = s.buf ∨
      ∃ i : Byte, a = BitVec.ofNat 12 (txbufBase + i.toNat) ∧ cmdBusy s = false ∧
        (hostWrite a v s).buf = Memory.store s.buf (txbufBase + i.toNat) v := by
  rcases hostWrite_cases a v s with ⟨-, h⟩ | ⟨-, h⟩ | ⟨-, h⟩ | ⟨i, ht, hb, h⟩ | h
  · rw [h, commandWrite_frame]; exact .inl rfl
  · rcases statusWrite_cases v s with he | ⟨-, he⟩ <;> rw [h, he] <;> exact .inl rfl
  · rcases frameAckWrite_cases s with ⟨-, he⟩ | ⟨-, he⟩ <;> rw [h, he] <;> exact .inl rfl
  · rw [h]; exact .inr ⟨i, addr_of_target_eq_txbuf a i ht, hb, rfl⟩
  · rw [h.rest]; exact .inl rfl

/-- A host write as its reader sees it: at most the TXBUF byte it names has changed, to the byte written. -/
theorem readBuf_hostWrite (a : Addr) (v : Byte) (s : State) (x : Nat) :
    readBuf (hostWrite a v s) x = readBuf s x ∨
      (a = BitVec.ofNat 12 x ∧ 0x100 ≤ x ∧ x ≤ 0x1FF ∧ cmdBusy s = false ∧ readBuf (hostWrite a v s) x = v) := by
  have hp := (hostWrite_sameOutside a v s).powerUp
  rcases hostWrite_buf a v s with h | ⟨i, ha, hb, h⟩
  · exact .inl (readBuf_congr _ _ h hp x)
  · rw [readBuf_of_store h hp]
    split
    · subst x
      have hi := i.isLt
      exact .inr ⟨ha, by simp only [txbufBase]; omega, by simp only [txbufBase]; omega, hb, rfl⟩
    · exact .inl rfl

theorem RxByteResult.buf {b : Byte} {u t : State} (h : RxByteResult b u t) :
    t.buf = u.buf ∨
      (u.rx.phase = .collect ∧ t.buf = Memory.store u.buf (rxbufBase + u.rx.cursor.toNat) b) := by
  cases h with
  | collect hp => exact .inr ⟨hp, rfl⟩
  | _ => exact .inl rfl

/-- The receiver stores only a payload byte it collects, at its cursor (R169). -/
theorem rxfTurn_buf {s t : State} (h : rxfTurn s = .next t) :
    t.buf = s.buf ∨
      ∃ b q, s.rxIn = b :: q ∧ s.rx.phase = .collect ∧
        t.buf = Memory.store s.buf (rxbufBase + s.rx.cursor.toNat) b := by
  rcases rxfTurn_cases s t h with rfl | ⟨-, -, rfl⟩ | ⟨b, q, hq, -, hr⟩
  · exact .inl rfl
  · unfold rxGrant
    split <;> exact .inl rfl
  · exact hr.buf.imp_right fun ⟨hp, hb⟩ => ⟨b, q, hq, hp, hb⟩

/-- What a turn that changes a buffer byte is: a host write of that byte, or RX.COLLECT at its cursor. -/
theorem takeTurn_readBuf {turn : Turn} {s u : State} (h : takeTurn turn s = .next u) (x : Nat) :
    readBuf u x = readBuf s x ∨
      (∃ v, turn = hostWriteTurn (BitVec.ofNat 12 x) v ∧ 0x100 ≤ x ∧ x ≤ 0x1FF ∧ cmdBusy s = false ∧
        readBuf u x = v) ∨
      (∃ b q, turn = .rxf ∧ s.rxIn = b :: q ∧ s.rx.phase = .collect ∧ x = rxbufBase + s.rx.cursor.toNat ∧
        readBuf u x = b) := by
  cases turn with
  | host c =>
    rcases hostTurn_cases h with rfl | rfl | ⟨a, v, hc, rfl⟩
    · exact .inl rfl
    · exact .inl rfl
    · rw [hc]
      rcases readBuf_hostWrite a v s x with hk | ⟨rfl, h1, h2, hb, hr⟩
      · exact .inl hk
      · exact .inr (.inl ⟨v, rfl, h1, h2, hb, hr⟩)
  | rxf =>
    have hp := (takeTurn_outside h).2.1
    rcases rxfTurn_buf h with hk | ⟨b, q, hq, hc, hb⟩
    · exact .inl (readBuf_congr _ _ hk hp x)
    · by_cases hx : x = rxbufBase + s.rx.cursor.toNat
      · exact .inr (.inr ⟨b, q, rfl, hq, hc, hx, (readBuf_of_store hb hp x).trans (if_pos hx)⟩)
      · exact .inl ((readBuf_of_store hb hp x).trans (if_neg hx))
  | txe => rw [txeTurn_frame h]; exact .inl rfl
  | ctl => cases h; rw [closeDone_frame]; exact .inl rfl
  | tick => cases h; rw [idleTick_frame]; exact .inl rfl
  | idleAbort => cases h; rw [idleAbort_frame]; exact .inl rfl
  | env e => cases h; rw [envTurn_frame]; exact .inl rfl
  | rst c => cases h; exact .inl rfl

/-- Settles O34: the turn is one of the two that store, and the invariant gives the state RX.COLLECT is in. -/
theorem buffersChangeOnlyByTheirOwners : Obligations.BuffersChangeOnlyByTheirOwners := by
  intro s t hinv h x hx
  have hi := (machineInv_iff s).1 hinv
  obtain ⟨-, ⟨-, rfl⟩ | ⟨turn, rest, u, hs, hu, rfl⟩⟩ := step_cases s t h
  · exact absurd rfl hx
  · rw [readBuf_congr u _ (observeOutputs_buf s u) (observeOutputs_powerUp s u)] at hx ⊢
    rcases takeTurn_readBuf hu x with hk | ⟨v, rfl, hw⟩ | ⟨b, q, rfl, hq, hp, hxc, hr⟩
    · exact absurd hk hx
    · exact .inl ⟨v, rest, hs, hw⟩
    · have hp : s.rx.phase = .collect := hp
      have hh : s.rx.phase.holdsLock = true := by rw [hp]; rfl
      exact .inr ⟨b, q, rest, hs, hq, hp, hi.rxLock.2 hh, by simpa [acceptDest, bcastAddr] using hi.dest (.inl hh),
        hi.cursor.1 hp, hxc, hr⟩

/-- An instruction of the COMMAND space is the COMMAND write of its byte (R261). -/
theorem exec_of_encode_command {i : Instr} {v : Byte} (s : State) (h : encode i = .command v) :
    exec i s = .next (commandWrite v s) := by
  cases i <;> cases h <;> rfl

/-- An instruction of the space of frames queues a PONG or delivers (R173). -/
theorem exec_of_encode_frameCmd {i : Instr} {v : Byte} (s : State) (h : encode i = .frameCmd v) :
    exec i s = .next (queuePong s) ∨ exec i s = .next (deliverFrame s) := by
  cases i with
  | ping => exact .inl rfl
  | _ => cases h <;> exact .inr rfl

/-- Settles O18: only WR reaches the buffers. -/
theorem instructionsStoreOnlyTheNamedTxbufByte : Obligations.InstructionsStoreOnlyTheNamedTxbufByte := by
  intro i s t h x
  cases he : encode i with
  | command v =>
    rw [exec_of_encode_command s he] at h
    cases h
    rw [commandWrite_frame]
    exact .inl rfl
  | frameCmd v =>
    rcases exec_of_encode_frameCmd s he with hx | hx <;> rw [hx] at h <;> cases h <;> exact .inl rfl
  | bus w =>
    cases i with
    | wr a d =>
      cases h
      rcases readBuf_hostWrite a d s x with hk | ⟨rfl, hw⟩
      · exact .inl hk
      · exact .inr ⟨d, rfl, hw⟩
    | rd a => cases h; exact .inl rfl
    | wrCommand c => cases h; rw [commandWrite_frame]; exact .inl rfl
    | wrStatus d =>
      cases h
      rcases statusWrite_cases d s with hk | ⟨-, hk⟩ <;> rw [hk] <;> exact .inl rfl
    | wrFrameAck d =>
      cases h
      rcases frameAckWrite_cases s with ⟨-, hk⟩ | ⟨-, hk⟩ <;> rw [hk] <;> exact .inl rfl
    | _ => cases he

/-! ## Reset -/

/-- Settles O52: each field of `hardReset` is read off. -/
theorem resetEdgeGivesTheResetValues : Obligations.ResetEdgeGivesTheResetValues := by
  intro c s
  refine ⟨⟨hardReset s, rfl, ?_⟩, rfl⟩
  exact ⟨rfl, rfl, rfl, rfl, rfl, rfl, rfl, rfl, rfl, rfl, rfl, rfl, rfl, rfl, rfl, rfl, rfl, rfl, rfl, rfl, rfl, rfl,
    fun _ => rfl, rfl, rfl, rfl, rfl⟩

/-- What the 256 registers read after reset (R49). -/
theorem hostRead_page0_reset : ∀ r : Byte,
    hostRead (0x0#4 ++ r) State.reset =
      if (0x0#4 ++ r : Addr) = 0x002#12 ∨ (0x0#4 ++ r : Addr) = 0x016#12 then 0x01#8 else 0x00#8 := by
  decide

/-- Settles O53. -/
theorem registersReadTheirResetValues : Obligations.RegistersReadTheirResetValues := by
  intro a ha
  have hpage : a.extractLsb' 8 4 = 0x0#4 := by
    apply BitVec.eq_of_toNat_eq
    rw [BitVec.extractLsb'_toNat, Nat.shiftRight_eq_div_pow, Nat.div_eq_of_lt ha]
    rfl
  rw [addr_eq_of_parts a _ _ hpage rfl]
  exact hostRead_page0_reset _

/-- Settles O54. -/
theorem invariantHoldsAfterReset : Obligations.InvariantHoldsAfterReset :=
  ⟨(machineInv_iff _).2 (hardReset_inv (s := State.reset) (by decide) rfl), nofun, nofun, nofun⟩

end Sys2Proof.Machine
end

section
/-! PROOFS of the family 10_state.md, third part: what each agent's turn can do to CMD_BUSY and FRAME_PEND (O23). -/

namespace Sys2Proof.Machine
open Sys2Proof.Safety

/-! ## CMD_BUSY -/

/-- What a turn from `s` to `u` does to CMD_BUSY (R29). -/
inductive BusyStep (turn : Turn) (s u : State) : Prop
  | kept (h : cmdBusy u = cmdBusy s)
  | accepted (v : Byte) (i : Instr) (ht : turn = hostWriteTurn 0x003#12 v) (hd : decodeCommand v = .ok i)
      (ho : i ≠ .cmdOpen) (hu : i = .cmdClose ∧ u.life = .closing ∨ i ≠ .cmdClose ∧ u.hjob.valid = true)
  | completed (hs : cmdBusy s = true) (hr : u.result = 0x00#8) (hd : u.doneFlag = true)
  | reset (ht : IsReset turn) (hu : cmdBusy u = false)

theorem openBody_no_job {s : State} (hs : s.hjob.valid = false) : (openBody s).hjob.valid = false := by
  rcases openBody_cases s with ⟨-, h⟩ | ⟨-, -, h⟩ | ⟨-, -, -, h⟩ | ⟨-, -, -, -, h⟩ <;> rw [h]
  case inr.inr.inr => rfl
  all_goals exact hs

theorem closeBody_no_job {s : State} (hs : s.hjob.valid = false) : (closeBody s).hjob.valid = false := by
  rcases closeBody_cases s with ⟨-, h⟩ | ⟨-, -, h⟩ | ⟨-, -, h⟩ <;> rw [h] <;> exact hs

/-- A COMMAND byte that creates a host job is one of the ten sends. -/
theorem decodeCommand_of_job {v : Byte} {s : State} (hs : s.hjob.valid = false)
    (h : (commandBody v s).hjob.valid = true) :
    ∃ i, decodeCommand v = .ok i ∧ i ≠ .cmdOpen ∧ i ≠ .cmdClose := by
  cases hd : decodeCommand v with
  | error e => simp [commandBody, hd, hs] at h
  | ok i =>
    refine ⟨i, rfl, ?_, ?_⟩ <;> rintro rfl <;> simp only [commandBody, hd] at h
    · simp [openBody_no_job hs] at h
    · simp [closeBody_no_job hs] at h

/-- An accepted command leaves CMD_BUSY at 0, or it is a CLOSE or a send that has begun. -/
theorem commandBody_busy (v : Byte) (s : State) (hb : cmdBusy s = false) :
    cmdBusy (commandBody v s) = false ∨ ∃ i, decodeCommand v = .ok i ∧ i ≠ .cmdOpen ∧
      (i = .cmdClose ∧ (commandBody v s).life = .closing ∨
        i ≠ .cmdClose ∧ (commandBody v s).hjob.valid = true) := by
  rcases commandBody_cases v s with ⟨c, -, h⟩ | ⟨-, -, -, -, -, h⟩ | ⟨rfl, -, ⟨-, h⟩ | ⟨-, h⟩⟩ | ⟨-, -, k, b, l, -, h⟩
  · rw [h]; exact .inl hb
  · rw [h]; exact .inl rfl
  · rw [h]; exact .inr ⟨.cmdClose, rfl, nofun, .inl ⟨rfl, rfl⟩⟩
  · rw [h]; exact .inr ⟨.cmdClose, rfl, nofun, .inl ⟨rfl, rfl⟩⟩
  · have hv : (commandBody v s).hjob.valid = true := by rw [h]; rfl
    obtain ⟨i, hd, ho, hc⟩ := decodeCommand_of_job ((cmdBusy_false_iff s).1 hb).1 hv
    exact .inr ⟨i, hd, ho, .inr ⟨hc, hv⟩⟩

theorem commandWrite_busy (v : Byte) (s : State) : BusyStep (hostWriteTurn addrCommand v) s (commandWrite v s) := by
  unfold commandWrite
  cases hb : cmdBusy s with
  | true => rw [acceptCommand_busy _ _ hb]; exact .kept rfl
  | false =>
    rw [acceptCommand_idle _ _ hb]
    rcases commandBody_busy v { s with doneFlag := false } hb with hk | ⟨i, hd, ho, hu⟩
    · exact .kept (hk.trans hb.symm)
    · exact .accepted v i rfl hd ho hu

theorem hostWrite_busy (a : Addr) (v : Byte) (s : State) : BusyStep (hostWriteTurn a v) s (hostWrite a v s) := by
  rcases hostWrite_cases a v s with ⟨ht, h⟩ | ⟨-, h⟩ | ⟨-, h⟩ | ⟨i, -, -, h⟩ | h
  · obtain rfl := addr_of_target_eq_command a ht
    rw [h]
    exact commandWrite_busy v s
  · rcases statusWrite_cases v s with he | ⟨-, he⟩ <;> rw [h, he] <;> exact .kept rfl
  · rcases frameAckWrite_cases s with ⟨-, he⟩ | ⟨-, he⟩ <;> rw [h, he] <;> exact .kept rfl
  · rw [h]; exact .kept rfl
  · rw [h.rest]; exact .kept rfl

theorem takeTurn_busy {turn : Turn} {s u : State} (hi : Inv s) (h : takeTurn turn s = .next u) :
    BusyStep turn s u := by
  cases turn with
  | host c =>
    rcases hostTurn_cases h with rfl | rfl | ⟨a, v, hc, rfl⟩
    · exact .kept rfl
    · exact .kept rfl
    · rw [hc]; exact hostWrite_busy a v s
  | ctl =>
    cases h
    rcases closeDone_cases s with he | ⟨hl, -, -, -, -, he⟩ <;> rw [he]
    · exact .kept rfl
    · exact .completed ((cmdBusy_iff s).2 (.inr hl)) rfl rfl
  | rxf => rw [rxfTurn_frame h]; exact .kept rfl
  | txe =>
    rcases txeTurn_cases s u h with rfl | hr
    · exact .kept rfl
    · cases hr with
      | flushHost _ _ hl => exact .completed ((cmdBusy_iff s).2 (.inl (hi.job.1 hl))) rfl rfl
      | _ => exact .kept rfl
  | tick => cases h; rw [idleTick_frame]; exact .kept rfl
  | idleAbort => cases h; rw [idleAbort_frame]; exact .kept rfl
  | env e => cases h; rw [envTurn_frame]; exact .kept rfl
  | rst c => cases h; exact .reset ⟨c, rfl⟩ rfl

/-! ## FRAME_PEND -/

theorem register_of_target_eq_frameAck (r : Byte) (h : registerTarget r = .frameAck) : r = 0x14#8 := by
  unfold registerTarget at h
  split at h <;> cases h
  rfl

/-- The only address that names FRAME_ACK (R37). -/
theorem addr_of_target_eq_frameAck (a : Addr) (h : target a = .frameAck) : a = addrFrameAck := by
  rcases target_cases a with ⟨r, ha, ht⟩ | ⟨i, ht⟩ | ⟨i, ht⟩ | ht <;> rw [ht] at h
  · rw [ha, register_of_target_eq_frameAck r h]
    rfl
  all_goals cases h

/-- What a turn from `s` to `u` does to FRAME_PEND (R29). -/
inductive PendStep (turn : Turn) (s u : State) : Prop
  | kept (h : framePend u = framePend s)
  | delivered (ht : turn = .rxf) (hp : s.rx.phase = .chkEot) (hu : framePend u = true)
  | replied (ht : turn = .txe) (hp : s.rx.phase = .pongWait) (hf : s.tx.phase = .flush) (hu : framePend u = true)
  | acked (v : Byte) (ht : turn = hostWriteTurn 0x014#12 v) (hu : framePend u = false)
  | reset (ht : IsReset turn) (hu : framePend u = false)

theorem framePend_of_holdsLock {s : State} (h : s.rx.phase.holdsLock = true) : framePend s = false := by
  refine Bool.eq_false_iff.2 fun hd => ?_
  rw [(framePend_iff s).1 hd] at h
  cases h

/-- OPEN finds no delivery to end, and CLOSE does not abandon one. -/
theorem commandBody_pend {s : State} (hi : Inv s) (hb : cmdBusy s = false) (v : Byte) :
    framePend (commandBody v s) = framePend s := by
  rcases commandBody_cases v s with ⟨c, -, h⟩ | ⟨-, hl, -, -, -, h⟩ | ⟨-, -, ⟨hp, h⟩ | ⟨-, h⟩⟩ |
    ⟨-, -, k, b, l, -, h⟩ <;> rw [h]
  case inr.inl =>
    have hc := ((cmdBusy_false_iff s).1 hb).2
    have hq : s.life = .uninit ∨ s.life = .stopped := by cases hs : s.life <;> simp_all
    simp [framePend, openEndpoint, (hi.idle hq).1]
  case inr.inr.inl.inl =>
    have hd : s.rx.phase ≠ .deliver := fun hx => by rw [hx] at hp; cases hp
    simp [framePend, beginClose, abandonFrame, hd]
  all_goals rfl

theorem commandWrite_pend {s : State} (hi : Inv s) (v : Byte) : framePend (commandWrite v s) = framePend s := by
  unfold commandWrite
  cases hb : cmdBusy s with
  | true => rw [acceptCommand_busy _ _ hb]
  | false => rw [acceptCommand_idle _ _ hb]; exact commandBody_pend hi.clearDone hb v

theorem hostWrite_pend {s : State} (hi : Inv s) (a : Addr) (v : Byte) :
    PendStep (hostWriteTurn a v) s (hostWrite a v s) := by
  rcases hostWrite_cases a v s with ⟨-, h⟩ | ⟨-, h⟩ | ⟨ht, h⟩ | ⟨i, -, -, h⟩ | h
  · rw [h]; exact .kept (commandWrite_pend hi v)
  · rcases statusWrite_cases v s with he | ⟨-, he⟩ <;> rw [h, he] <;> exact .kept rfl
  · obtain rfl := addr_of_target_eq_frameAck a ht
    rcases frameAckWrite_cases s with ⟨-, he⟩ | ⟨-, he⟩ <;> rw [h, he]
    · exact .kept rfl
    · exact .acked v rfl rfl
  · rw [h]; exact .kept rfl
  · rw [h.rest]; exact .kept rfl

theorem RxByteResult.pend {b : Byte} {u t : State} (h : RxByteResult b u t) :
    framePend t = framePend u ∨ (u.rx.phase = .chkEot ∧ framePend t = true) := by
  cases h with
  | eotDeliver hp => exact .inr ⟨hp, rfl⟩
  | discard => exact .inl rfl
  | shift => exact .inl rfl
  | collect hp =>
    refine .inl ?_
    rw [framePend_of_holdsLock (s := u) (by rw [hp]; rfl)]
    refine framePend_of_holdsLock ?_
    dsimp only [storeRxbuf_rx]
    split <;> rfl
  | _ hp => exact .inl (by simp only [framePend, hp]; rfl)

theorem rxfTurn_pend {s t : State} (h : rxfTurn s = .next t) : PendStep .rxf s t := by
  rcases rxfTurn_cases s t h with rfl | ⟨hp, -, rfl⟩ | ⟨b, q, -, -, hr⟩
  · exact .kept rfl
  · refine .kept ?_
    unfold rxGrant framePend
    rw [hp]
    split
    · dsimp only
      split <;> rfl
    · rfl
  · rcases hr.pend with hk | ⟨hp, hu⟩
    · exact .kept hk
    · exact .delivered rfl hp hu

theorem txeTurn_pend {s t : State} (hi : Inv s) (h : txeTurn s = .next t) : PendStep .txe s t := by
  rcases txeTurn_cases s t h with rfl | hr
  · exact .kept rfl
  · cases hr with
    | flushPong hp _ hl => exact .replied rfl (hi.pong_flush hp hl).2 hp rfl
    | _ => exact .kept rfl

theorem takeTurn_pend {turn : Turn} {s u : State} (hi : Inv s) (h : takeTurn turn s = .next u) :
    PendStep turn s u := by
  cases turn with
  | host c =>
    rcases hostTurn_cases h with rfl | rfl | ⟨a, v, hc, rfl⟩
    · exact .kept rfl
    · exact .kept rfl
    · rw [hc]; exact hostWrite_pend hi a v
  | ctl => cases h; rw [closeDone_frame]; exact .kept rfl
  | rxf => exact rxfTurn_pend h
  | txe => exact txeTurn_pend hi h
  | tick => cases h; rw [idleTick_frame]; exact .kept rfl
  | idleAbort =>
    cases h
    rcases idleAbort_cases s with he | ⟨hp, -, -, he⟩ <;> rw [he]
    · exact .kept rfl
    · exact .kept (framePend_of_holdsLock hp).symm
  | env e => cases h; rw [envTurn_frame]; exact .kept rfl
  | rst c => cases h; exact .reset ⟨c, rfl⟩ rfl

theorem BusyStep.rise {turn : Turn} {s u : State} (h : BusyStep turn s u) (h0 : cmdBusy s = false)
    (h1 : cmdBusy u = true) : ∃ v i, turn = hostWriteTurn 0x003#12 v ∧ decodeCommand v = .ok i ∧ i ≠ .cmdOpen ∧
      (i = .cmdClose ∧ u.life = .closing ∨ i ≠ .cmdClose ∧ u.hjob.valid = true) := by
  cases h with
  | kept hk => rw [hk, h0] at h1; cases h1
  | accepted v i ht hd ho hu => exact ⟨v, i, ht, hd, ho, hu⟩
  | completed hs => rw [hs] at h0; cases h0
  | reset _ hu => rw [hu] at h1; cases h1

theorem BusyStep.fall {turn : Turn} {s u : State} (h : BusyStep turn s u) (h1 : cmdBusy s = true)
    (h0 : cmdBusy u = false) : (u.result = 0x00#8 ∧ u.doneFlag = true) ∨ IsReset turn := by
  cases h with
  | kept hk => rw [hk, h1] at h0; cases h0
  | accepted v i _ _ _ hu =>
    have hb : cmdBusy u = true := (cmdBusy_iff u).2 (hu.elim (fun hc => .inr hc.2) fun hj => .inl hj.2)
    rw [hb] at h0; cases h0
  | completed _ hr hd => exact .inl ⟨hr, hd⟩
  | reset ht => exact .inr ht

theorem PendStep.rise {turn : Turn} {s u : State} (h : PendStep turn s u) (h0 : framePend s = false)
    (h1 : framePend u = true) :
    (turn = .rxf ∧ s.rx.phase = .chkEot) ∨ (turn = .txe ∧ s.rx.phase = .pongWait ∧ s.tx.phase = .flush) := by
  cases h with
  | kept hk => rw [hk, h0] at h1; cases h1
  | delivered ht hp => exact .inl ⟨ht, hp⟩
  | replied ht hp hf => exact .inr ⟨ht, hp, hf⟩
  | acked _ _ hu => rw [hu] at h1; cases h1
  | reset _ hu => rw [hu] at h1; cases h1

theorem PendStep.fall {turn : Turn} {s u : State} (h : PendStep turn s u) (h1 : framePend s = true)
    (h0 : framePend u = false) : (∃ v, turn = hostWriteTurn 0x014#12 v) ∨ IsReset turn := by
  cases h with
  | kept hk => rw [hk, h1] at h0; cases h0
  | delivered _ _ hu => rw [hu] at h0; cases h0
  | replied _ _ _ hu => rw [hu] at h0; cases h0
  | acked v ht => exact .inl ⟨v, ht⟩
  | reset ht => exact .inr ht

/-- Settles O23, from what a turn can do to each of the two flags. -/
theorem busyAndPendingRiseAndFallWhereNamed : Obligations.BusyAndPendingRiseAndFallWhereNamed := by
  intro s t hinv h
  obtain ⟨-, ⟨-, rfl⟩ | ⟨turn, rest, u, hs, hu, rfl⟩⟩ := step_cases s t h
  · exact ⟨fun h0 h1 => by simp [h0] at h1, fun h1 h0 => by simp [h1] at h0,
      fun h0 h1 => by simp [h0] at h1, fun h1 h0 => by simp [h1] at h0⟩
  · have hi : Inv { s with sched := rest } := { (machineInv_iff s).1 hinv with }
    have hbusy := takeTurn_busy hi hu
    have hpend := takeTurn_pend hi hu
    rw [observeOutputs_eq]
    refine ⟨fun h0 h1 => ?_, fun h1 h0 => ?_, fun h0 h1 => ?_, fun h1 h0 => ⟨turn, rest, hs, hpend.fall h1 h0⟩⟩
    · obtain ⟨v, i, rfl, hc⟩ := hbusy.rise h0 h1
      exact ⟨v, i, rest, hs, hc⟩
    · exact (hbusy.fall h1 h0).imp_right fun hr => ⟨turn, rest, hs, hr⟩
    · rcases hpend.rise h0 h1 with ⟨rfl, hp⟩ | ⟨rfl, hp⟩
      · exact ⟨rest, .inl ⟨hs, hp⟩⟩
      · exact ⟨rest, .inr ⟨hs, hp⟩⟩

end Sys2Proof.Machine
end

section
/-! PROOFS of the family 20_memory.md: a host cycle is one access (O20), what a transmit-parameter write stores and
reads back (O17), which writes only store (O19), and that an accepted send is kept until it completes (O12). -/

namespace Sys2Proof.Machine
open Sys2Proof.Safety

/-! ## A host cycle -/

/-- Settles O20: a write cycle is `takeTurn_hostWriteTurn`, the others are read off `hostTurn_eq`. -/
theorem hostCycleIsOneAccess : Obligations.HostCycleIsOneAccess := by
  rintro ⟨we, re, a, d⟩ s
  refine ⟨?write, ?read, ?none⟩
  case write =>
    rintro ⟨rfl, rfl⟩
    exact ⟨takeTurn_hostWriteTurn a d s, rfl⟩
  case read =>
    rintro ⟨rfl, rfl⟩
    exact ⟨hostTurn_eq ⟨false, true, a, d⟩ s, rfl⟩
  case none =>
    intro hs
    obtain rfl : we = re := hs
    cases we
    · exact ⟨hostTurn_eq ⟨false, false, a, d⟩ s, rfl⟩
    · exact ⟨hostTurn_eq ⟨true, true, a, d⟩ s, rfl⟩

/-! ## The bytes of TX_LEN and TX_VAL -/

/-- `x` is `w` with byte `k` replaced by `b`, its other bits unchanged (R67). -/
def ByteReplaced {n : Nat} (k : Nat) (b : Byte) (w x : BitVec n) : Prop :=
  ∀ i < n, x.getLsbD i = if 8 * k ≤ i ∧ i < 8 * k + 8 then b.getLsbD (i - 8 * k) else w.getLsbD i

theorem setLenByte_replaces (w : BitVec 16) {k : Nat} (hk : k < 2) (b : Byte) :
    ByteReplaced k b w (setLenByte w k b) := by
  intro i hi
  interval_cases k <;> refine BitVec.getLsbD_append.trans ?_
  · grind
  · grind

theorem setValByte_replaces (w : BitVec 32) {k : Nat} (hk : k < 4) (b : Byte) :
    ByteReplaced k b w (setValByte w k b) := by
  intro i hi
  interval_cases k <;> refine BitVec.getLsbD_append.trans ?_
  · grind
  · rw [BitVec.getLsbD_append]; grind
  · rw [BitVec.getLsbD_append]; grind
  · grind

/-- Reading byte `j` after byte `k` was replaced (R67). -/
theorem ByteReplaced.byte {n k : Nat} {b : Byte} {w x : BitVec n} (h : ByteReplaced k b w x) {j : Nat}
    (hj : 8 * j + 8 ≤ n) : x.extractLsb' (8 * j) 8 = if j = k then b else w.extractLsb' (8 * j) 8 := by
  apply BitVec.eq_of_getLsbD_eq
  intro i hi
  rw [BitVec.getLsbD_extractLsb', h _ (by omega)]
  by_cases hjk : j = k
  · subst hjk
    simp [hi]
  · have hout : ¬ (8 * k ≤ 8 * j + i ∧ 8 * j + i < 8 * k + 8) := by omega
    simp [hout, hjk]

/-- Replacing a byte twice by the same value is replacing it once (R70). -/
theorem ByteReplaced.twice {n k : Nat} {b : Byte} {w x y : BitVec n} (hx : ByteReplaced k b w x)
    (hy : ByteReplaced k b x y) : y = x := by
  apply BitVec.eq_of_getLsbD_eq
  intro i hi
  rw [hy i hi, hx i hi]
  split <;> rfl

theorem lenByte_setLenByte (w : BitVec 16) {j k : Nat} (hj : j < 2) (hk : k < 2) (b : Byte) :
    lenByte (setLenByte w k b) j = if j = k then b else lenByte w j :=
  (setLenByte_replaces w hk b).byte (by omega)

theorem valByte_setValByte (w : BitVec 32) {j k : Nat} (hj : j < 4) (hk : k < 4) (b : Byte) :
    valByte (setValByte w k b) j = if j = k then b else valByte w j :=
  (setValByte_replaces w hk b).byte (by omega)

/-- TX_LEN is its two bytes, least significant first (R65). -/
theorem eq_lenBytes (w : BitVec 16) : w = lenByte w 1 ++ lenByte w 0 := by
  have all : lenByte w 1 ++ lenByte w 0 = w.extractLsb' 0 16 :=
    BitVec.extractLsb'_append_extractLsb'_eq_extractLsb' rfl
  rw [all, BitVec.extractLsb'_eq_self]

/-- TX_VAL is its four bytes, least significant first (R65). -/
theorem eq_valBytes (w : BitVec 32) : w = ((valByte w 3 ++ valByte w 2) ++ valByte w 1) ++ valByte w 0 := by
  have high : valByte w 3 ++ valByte w 2 = w.extractLsb' 16 16 :=
    BitVec.extractLsb'_append_extractLsb'_eq_extractLsb' rfl
  have upper : w.extractLsb' 16 16 ++ valByte w 1 = w.extractLsb' 8 24 :=
    BitVec.extractLsb'_append_extractLsb'_eq_extractLsb' rfl
  have all : w.extractLsb' 8 24 ++ valByte w 0 = w.extractLsb' 0 32 :=
    BitVec.extractLsb'_append_extractLsb'_eq_extractLsb' rfl
  rw [high, upper, all, BitVec.extractLsb'_eq_self]

/-! ## What a host read returns after a parameter is stored -/

/-- The register of byte `k` of TX_LEN (R65). -/
def lenTarget : Nat → Target
  | 0 => .txLen0
  | _ => .txLen1

/-- The register of byte `k` of TX_VAL (R65). -/
def valTarget : Nat → Target
  | 0 => .txVal0
  | 1 => .txVal1
  | 2 => .txVal2
  | _ => .txVal3

theorem hostRead_withTxDest (b : Addr) (v : Byte) (s : State) :
    hostRead b { s with txDest := v } = if target b = .txDest then v else hostRead b s := by
  unfold hostRead
  cases target b <;> rfl

theorem hostRead_withTxCmd (b : Addr) (v : Byte) (s : State) :
    hostRead b { s with txCmd := v } = if target b = .txCmd then v else hostRead b s := by
  unfold hostRead
  cases target b <;> rfl

theorem hostRead_withLenByte (b : Addr) {k : Nat} (hk : k < 2) (v : Byte) (s : State) :
    hostRead b { s with txLen := setLenByte s.txLen k v } = if target b = lenTarget k then v else hostRead b s := by
  unfold hostRead
  interval_cases k <;> cases target b with
  | txLen0 => exact lenByte_setLenByte _ (by decide) (by decide) v
  | txLen1 => exact lenByte_setLenByte _ (by decide) (by decide) v
  | _ => rfl

theorem hostRead_withValByte (b : Addr) {k : Nat} (hk : k < 4) (v : Byte) (s : State) :
    hostRead b { s with txVal := setValByte s.txVal k v } = if target b = valTarget k then v else hostRead b s := by
  unfold hostRead
  interval_cases k <;> cases target b with
  | txVal0 => exact valByte_setValByte _ (by decide) (by decide) v
  | txVal1 => exact valByte_setValByte _ (by decide) (by decide) v
  | txVal2 => exact valByte_setValByte _ (by decide) (by decide) v
  | txVal3 => exact valByte_setValByte _ (by decide) (by decide) v
  | _ => rfl

theorem hostRead_storeTxbuf (b : Addr) (i v : Byte) (s : State) :
    hostRead b (storeTxbuf i.toNat v s) = if target b = .txbuf i then v else hostRead b s := by
  unfold hostRead
  cases target b with
  | txbuf j =>
    by_cases hj : j = i
    · subst hj
      rw [if_pos rfl]
      exact txbuf_storeTxbuf_same s _ v
    · rw [if_neg (by simpa using hj)]
      exact txbuf_storeTxbuf_other s _ _ v (by simpa [BitVec.toNat_inj] using hj)
  | rxbuf j => exact rxbuf_storeTxbuf s _ _ v (by have := i.isLt; omega)
  | _ => rfl

/-! ## A write to a transmit parameter or to TXBUF -/

/-- A transmit parameter's byte or a byte of TXBUF: what R68 guards. -/
def Target.isParam : Target → Bool
  | .txDest | .txCmd | .txLen0 | .txLen1 | .txVal0 | .txVal1 | .txVal2 | .txVal3 | .txbuf _ => true
  | _ => false

/-- What a parameter write stores is all that its reader sees change (R67). -/
theorem hostRead_hostWrite {a : Addr} {s : State} (hb : cmdBusy s = false) (hp : (target a).isParam = true)
    (v : Byte) (b : Addr) :
    hostRead b (hostWrite a v s) = if target b = target a then v else hostRead b s := by
  unfold hostWrite
  cases ha : target a <;> rw [ha] at hp <;> simp only [unlessBusy_idle _ s hb]
  case txDest => exact hostRead_withTxDest b v s
  case txCmd => exact hostRead_withTxCmd b v s
  case txLen0 => exact hostRead_withLenByte b (k := 0) (by decide) v s
  case txLen1 => exact hostRead_withLenByte b (k := 1) (by decide) v s
  case txVal0 => exact hostRead_withValByte b (k := 0) (by decide) v s
  case txVal1 => exact hostRead_withValByte b (k := 1) (by decide) v s
  case txVal2 => exact hostRead_withValByte b (k := 2) (by decide) v s
  case txVal3 => exact hostRead_withValByte b (k := 3) (by decide) v s
  case txbuf i => exact hostRead_storeTxbuf b i v s
  all_goals cases hp

/-- The address of a parameter's byte (R24, R40); other targets are not asked for theirs. -/
def paramAddr : Target → Addr
  | .txDest => 0x008#12
  | .txCmd => 0x009#12
  | .txLen0 => 0x00A#12
  | .txLen1 => 0x00B#12
  | .txVal0 => 0x00C#12
  | .txVal1 => 0x00D#12
  | .txVal2 => 0x00E#12
  | .txVal3 => 0x00F#12
  | .txbuf i => BitVec.ofNat 12 (txbufBase + i.toNat)
  | _ => 0x000#12

theorem paramAddr_registerTarget :
    ∀ r : Byte, (registerTarget r).isParam = true → paramAddr (registerTarget r) = 0x0#4 ++ r := by
  decide

/-- No two addresses name the same parameter byte. -/
theorem paramAddr_target {a : Addr} (hp : (target a).isParam = true) : paramAddr (target a) = a := by
  rcases target_cases a with ⟨r, ha, ht⟩ | ⟨i, ht⟩ | ⟨i, ht⟩ | ht <;> rw [ht] at hp ⊢
  · exact (paramAddr_registerTarget r hp).trans ha.symm
  · exact (addr_of_target_eq_txbuf a i ht).symm
  all_goals cases hp

theorem registerTarget_isParam :
    ∀ r : Byte, 0x08 ≤ r.toNat → r.toNat ≤ 0x0F → (registerTarget r).isParam = true := by
  decide

/-- The addresses of the transmit parameters and of TXBUF (R24, R61). -/
theorem target_isParam {a : Addr}
    (h : (0x008 ≤ a.toNat ∧ a.toNat ≤ 0x00F) ∨ (0x100 ≤ a.toNat ∧ a.toNat ≤ 0x1FF)) :
    (target a).isParam = true := by
  have hpage : (a.extractLsb' 8 4).toNat = a.toNat / 256 := by
    rw [BitVec.extractLsb'_toNat, Nat.shiftRight_eq_div_pow]
    omega
  have hlow : (a.extractLsb' 0 8).toNat = a.toNat % 256 := by
    rw [BitVec.extractLsb'_toNat, Nat.shiftRight_zero]
  unfold target
  rcases h with ⟨h1, h2⟩ | ⟨h1, h2⟩
  · have h0 : a.extractLsb' 8 4 = 0x0#4 := by
      apply BitVec.eq_of_toNat_eq
      change _ = 0
      omega
    rw [h0]
    exact registerTarget_isParam _ (by omega) (by omega)
  · have h0 : a.extractLsb' 8 4 = 0x1#4 := by
      apply BitVec.eq_of_toNat_eq
      change _ = 1
      omega
    rw [h0]
    rfl

/-- Settles O17: the write is seen at its own address alone, and the wide registers are their bytes. -/
theorem parameterWriteReadsBackAndChangesNoOtherByte :
    Obligations.ParameterWriteReadsBackAndChangesNoOtherByte := by
  refine ⟨fun a v s hb ha => ?_, fun s => ⟨eq_lenBytes s.txLen, eq_valBytes s.txVal⟩⟩
  have hp := target_isParam ha
  refine ⟨hostWrite a v s, rfl, (hostRead_hostWrite hb hp v a).trans (if_pos rfl), fun b hba => ?_⟩
  refine (hostRead_hostWrite hb hp v b).trans (if_neg fun ht => hba ?_)
  rw [← paramAddr_target hp, ← ht, paramAddr_target (ht ▸ hp)]

/-! ## Writes that only store -/

/-- Storing the same byte twice is storing it once. -/
theorem Memory.store_twice (m : Memory) (a : Nat) (v : Byte) :
    Memory.store (Memory.store m a v) a v = Memory.store m a v := by
  induction m with
  | nil => simp [Memory.store]
  | cons c m ih =>
    obtain ⟨k, w⟩ := c
    by_cases h1 : a < k
    · simp [Memory.store, h1]
    · by_cases h2 : a = k
      · simp [Memory.store, h2]
      · simp [Memory.store, h1, h2, ih]

theorem storeTxbuf_twice (i : Nat) (v : Byte) (s : State) : storeTxbuf i v (storeTxbuf i v s) = storeTxbuf i v s :=
  congrArg (fun m => { s with buf := m }) (Memory.store_twice s.buf (txbufBase + i) v)

theorem setLenByte_twice (w : BitVec 16) {k : Nat} (hk : k < 2) (b : Byte) :
    setLenByte (setLenByte w k b) k b = setLenByte w k b :=
  (setLenByte_replaces w hk b).twice (setLenByte_replaces _ hk b)

theorem setValByte_twice (w : BitVec 32) {k : Nat} (hk : k < 4) (b : Byte) :
    setValByte (setValByte w k b) k b = setValByte w k b :=
  (setValByte_replaces w hk b).twice (setValByte_replaces _ hk b)

/-- A guarded store is idempotent when the store is and does not touch CMD_BUSY. -/
theorem unlessBusy_twice {f : State → State} {s : State} (hb : cmdBusy (f s) = cmdBusy s) (hf : f (f s) = f s) :
    unlessBusy f (unlessBusy f s) = unlessBusy f s := by
  cases h : cmdBusy s with
  | true => rw [unlessBusy_busy f s h, unlessBusy_busy f s h]
  | false => rw [unlessBusy_idle f s h, unlessBusy_idle f _ (hb.trans h), hf]

/-- Writing the same byte again to any address but COMMAND, STATUS and FRAME_ACK changes nothing (R70). -/
theorem hostWrite_twice {a : Addr} (h1 : target a ≠ .command) (h2 : target a ≠ .status)
    (h3 : target a ≠ .frameAck) (v : Byte) (s : State) : hostWrite a v (hostWrite a v s) = hostWrite a v s := by
  unfold hostWrite
  cases ht : target a
  case command => exact absurd ht h1
  case status => exact absurd ht h2
  case frameAck => exact absurd ht h3
  case txDest => exact unlessBusy_twice rfl rfl
  case txCmd => exact unlessBusy_twice rfl rfl
  case txLen0 =>
    exact unlessBusy_twice rfl (congrArg (fun w => { s with txLen := w }) (setLenByte_twice _ (k := 0) (by decide) v))
  case txLen1 =>
    exact unlessBusy_twice rfl (congrArg (fun w => { s with txLen := w }) (setLenByte_twice _ (k := 1) (by decide) v))
  case txVal0 =>
    exact unlessBusy_twice rfl (congrArg (fun w => { s with txVal := w }) (setValByte_twice _ (k := 0) (by decide) v))
  case txVal1 =>
    exact unlessBusy_twice rfl (congrArg (fun w => { s with txVal := w }) (setValByte_twice _ (k := 1) (by decide) v))
  case txVal2 =>
    exact unlessBusy_twice rfl (congrArg (fun w => { s with txVal := w }) (setValByte_twice _ (k := 2) (by decide) v))
  case txVal3 =>
    exact unlessBusy_twice rfl (congrArg (fun w => { s with txVal := w }) (setValByte_twice _ (k := 3) (by decide) v))
  case txbuf i => exact unlessBusy_twice rfl (storeTxbuf_twice _ v s)
  all_goals rfl

/-- Settles O19: a read only observes; a write is a TXBUF byte or a staging register, and idempotent. -/
theorem onlyThreeWritesDoMoreThanStore : Obligations.OnlyThreeWritesDoMoreThanStore := by
  refine ⟨?read, ?write⟩
  case read =>
    intro a b s t h
    cases h
    exact ⟨rfl, rfl⟩
  case write =>
    intro a v s t hc hs hf h
    cases h
    have h1 : target a ≠ .command := fun ht => hc (addr_of_target_eq_command a ht)
    have h2 : target a ≠ .status := fun ht => hs (addr_of_target_eq_status a ht)
    have h3 : target a ≠ .frameAck := fun ht => hf (addr_of_target_eq_frameAck a ht)
    refine ⟨?_, congrArg Host.Outcome.next (hostWrite_twice h1 h2 h3 v s)⟩
    rcases hostWrite_cases a v s with ⟨ht, -⟩ | ⟨ht, -⟩ | ⟨ht, -⟩ | ⟨i, -, -, h⟩ | h
    · exact absurd ht h1
    · exact absurd ht h2
    · exact absurd ht h3
    · rw [h]; rfl
    · rw [h.rest]

/-! ## An accepted send -/

/-- While CMD_BUSY = 1 a host write reaches no transmit parameter, no TXBUF byte and no job (R68). -/
theorem hostWrite_of_busy {s : State} (hb : cmdBusy s = true) (a : Addr) (v : Byte) :
    hostWrite a v s = { s with
      ctrl := (hostWrite a v s).ctrl, station := (hostWrite a v s).station, sohN := (hostWrite a v s).sohN
      doneFlag := (hostWrite a v s).doneFlag, rx := (hostWrite a v s).rx } := by
  unfold hostWrite
  cases target a <;> simp only [unlessBusy_busy _ s hb]
  case command => rw [commandWrite, acceptCommand_busy _ s hb]
  case status => rcases statusWrite_cases v s with he | ⟨-, he⟩ <;> rw [he]
  case frameAck => rcases frameAckWrite_cases s with ⟨-, he⟩ | ⟨-, he⟩ <;> rw [he]

/-- From `s` to `u` the staged parameters are kept, and the host job is kept or completed with OK (R67, R237). -/
structure SendKept (s u : State) : Prop where
  dest : u.txDest = s.txDest
  cmd : u.txCmd = s.txCmd
  len : u.txLen = s.txLen
  val : u.txVal = s.txVal
  job : u.hjob = s.hjob ∨
    (u.hjob = { s.hjob with valid := false } ∧ s.tx.phase = .flush ∧ u.result = 0x00#8 ∧ u.doneFlag = true)

theorem TxResult.sendKept {s u : State} (h : TxResult s u) : SendKept s u := by
  cases h with
  | flushHost hp => exact ⟨rfl, rfl, rfl, rfl, .inr ⟨rfl, hp, rfl, rfl⟩⟩
  | _ => exact ⟨rfl, rfl, rfl, rfl, .inl rfl⟩

theorem takeTurn_sendKept {turn : Turn} {s u : State} (hb : cmdBusy s = true) (hr : ¬ IsReset turn)
    (h : takeTurn turn s = .next u) : SendKept s u := by
  cases turn with
  | host c =>
    rcases hostTurn_cases h with rfl | rfl | ⟨a, v, -, rfl⟩
    · exact ⟨rfl, rfl, rfl, rfl, .inl rfl⟩
    · exact ⟨rfl, rfl, rfl, rfl, .inl rfl⟩
    · rw [hostWrite_of_busy hb]; exact ⟨rfl, rfl, rfl, rfl, .inl rfl⟩
  | ctl => cases h; rw [closeDone_frame]; exact ⟨rfl, rfl, rfl, rfl, .inl rfl⟩
  | rxf => rw [rxfTurn_frame h]; exact ⟨rfl, rfl, rfl, rfl, .inl rfl⟩
  | txe =>
    rcases txeTurn_cases s u h with rfl | hx
    · exact ⟨rfl, rfl, rfl, rfl, .inl rfl⟩
    · exact hx.sendKept
  | tick => cases h; rw [idleTick_frame]; exact ⟨rfl, rfl, rfl, rfl, .inl rfl⟩
  | idleAbort => cases h; rw [idleAbort_frame]; exact ⟨rfl, rfl, rfl, rfl, .inl rfl⟩
  | env e => cases h; rw [envTurn_frame]; exact ⟨rfl, rfl, rfl, rfl, .inl rfl⟩
  | rst c => exact absurd ⟨c, rfl⟩ hr

/-- No turn changes TXBUF while CMD_BUSY = 1: host writes are dropped, and RX.COLLECT stores past it (R68, R73). -/
theorem takeTurn_txbuf_of_busy {turn : Turn} {s u : State} (hb : cmdBusy s = true) (h : takeTurn turn s = .next u)
    {i : Nat} (hi : i ≤ 255) : txbuf u i = txbuf s i := by
  rcases takeTurn_readBuf h (txbufBase + i) with hk | ⟨v, -, -, -, hn, -⟩ | ⟨b, q, -, -, -, hx, -⟩
  · exact hk
  · rw [hb] at hn; cases hn
  · simp only [txbufBase, rxbufBase] at hx
    omega

/-- Settles O12: a step is a turn and what it shows of the outputs, which are neither parameters nor job. -/
theorem acceptedSendIsKeptUntilItCompletes : Obligations.AcceptedSendIsKeptUntilItCompletes := by
  intro s t h hj
  have hb : cmdBusy s = true := (cmdBusy_iff s).2 (.inl hj)
  obtain ⟨-, ⟨-, rfl⟩ | ⟨turn, rest, u, hs, hu, rfl⟩⟩ := step_cases s t h
  · exact .inr ⟨rfl, rfl, rfl, rfl, fun _ _ => rfl, .inl rfl⟩
  · by_cases hr : IsReset turn
    · exact .inl ⟨turn, rest, hs, hr⟩
    · obtain ⟨hdest, hcmd, hlen, hval, hjob⟩ := takeTurn_sendKept (s := { s with sched := rest }) hb hr hu
      rw [observeOutputs_eq]
      exact .inr ⟨hdest, hcmd, hlen, hval,
        fun i hi => takeTurn_txbuf_of_busy (s := { s with sched := rest }) hb hu hi, hjob⟩

end Sys2Proof.Machine
end

section
/-! PROOFS of the family 30_encoding.md: the encoder and the decoder are inverse to each other (O1, O2, O3), the
illegal COMMAND bytes (O4), a placed table word (O58), and the rows of a frame's command code (O31). -/

namespace Sys2Proof.Machine

/-! ## Words and their fields -/

/-- A bit is a field of width 1. -/
theorem ofBool_getLsbD_eq_extractLsb' {n : Nat} (x : BitVec n) (k : Nat) :
    BitVec.ofBool (x.getLsbD k) = x.extractLsb' k 1 := by
  apply BitVec.eq_of_getLsbD_eq
  intro i hi
  obtain rfl : i = 0 := by omega
  simp

/-- A COMMAND byte with reserved bits 000 is the byte of its fields B and OP (R95). -/
theorem commandByte_of_fields (b : Byte) (h : commandReserved b = 0#3) :
    commandByte (commandB b) (commandOp b) = b := by
  have upper : commandReserved b ++ b.extractLsb' 4 1 = b.extractLsb' 4 4 :=
    BitVec.extractLsb'_append_extractLsb'_eq_extractLsb' rfl
  have whole : b.extractLsb' 4 4 ++ commandOp b = b.extractLsb' 0 8 :=
    BitVec.extractLsb'_append_extractLsb'_eq_extractLsb' rfl
  rw [commandByte, commandB, ofBool_getLsbD_eq_extractLsb', ← h, upper, whole, BitVec.extractLsb'_eq_self]

/-- A bus word is put together from its fields W, R, A and D (R100). -/
theorem busWord_fields (w : BusWord) :
    ((BitVec.ofBool (busW w) ++ BitVec.ofBool (busR w)) ++ busA w) ++ busD w = w := by
  have strobes : w.extractLsb' 21 1 ++ w.extractLsb' 20 1 = w.extractLsb' 20 2 :=
    BitVec.extractLsb'_append_extractLsb'_eq_extractLsb' rfl
  have upper : w.extractLsb' 20 2 ++ busA w = w.extractLsb' 8 14 :=
    BitVec.extractLsb'_append_extractLsb'_eq_extractLsb' rfl
  have whole : w.extractLsb' 8 14 ++ busD w = w.extractLsb' 0 22 :=
    BitVec.extractLsb'_append_extractLsb'_eq_extractLsb' rfl
  rw [busW, busR, ofBool_getLsbD_eq_extractLsb', ofBool_getLsbD_eq_extractLsb', strobes, upper, whole,
    BitVec.extractLsb'_eq_self]

/-- A word with W = 1 and R = 0 is a write's word (R100). -/
theorem writeWord_of_fields {w : BusWord} (hw : busW w = true) (hr : busR w = false) :
    writeWord (busA w) (busD w) = w := by
  have h := busWord_fields w
  rw [hw, hr] at h
  exact h

/-- A word with W = 0, R = 1 and D = 0 is a read's word (R100). -/
theorem readWord_of_fields {w : BusWord} (hw : busW w = false) (hr : busR w = true) (hd : busD w = 0#8) :
    readWord (busA w) = w := by
  have h := busWord_fields w
  rw [hw, hr, hd] at h
  exact h

/-! ## The word of an instruction is read as that instruction -/

theorem decodeBus_writeWord (a : Addr) (d : Byte) : decodeBus (writeWord a d) = .ok (decodeWrite a d) :=
  decodeBus_append 0b10#2 a d

theorem decodeBus_readWord (a : Addr) : decodeBus (readWord a) = .ok (.rd a) :=
  decodeBus_append 0b01#2 a 0x00#8

/-- A write is well formed as WR at the addresses without a row of their own. -/
theorem wr_wf_iff (a : Addr) (d : Byte) :
    (Instr.wr a d).wf = true ↔ a ≠ addrCommand ∧ a ≠ addrStatus ∧ a ≠ addrFrameAck := by
  simp [Instr.wf, hasOwnWriteRow, addrCommand, addrStatus, addrFrameAck, and_assoc]

/-- At an address without a row of its own a write is read as WR. -/
theorem decodeWrite_of_wf {a : Addr} {d : Byte} (h : (Instr.wr a d).wf = true) : decodeWrite a d = .wr a d := by
  obtain ⟨hc, hs, hf⟩ := (wr_wf_iff a d).1 h
  rw [decodeWrite, if_neg hc, if_neg hs, if_neg hf]

/-- Decoding undoes encoding (R95, R96, R98, R100). -/
theorem decode_encode {i : Instr} (h : i.wf = true) : decode (encode i) = .ok i := by
  cases i with
  | wr a d => exact (decodeBus_writeWord a d).trans (congrArg Except.ok (decodeWrite_of_wf h))
  | rd a => exact decodeBus_readWord a
  | wrCommand c => exact decodeBus_writeWord addrCommand c
  | wrStatus d => exact decodeBus_writeWord addrStatus d
  | wrFrameAck d => exact decodeBus_writeWord addrFrameAck d
  | _ => rfl

/-- Settles O1. -/
theorem encodeThenDecodeGivesTheInstruction : Obligations.EncodeThenDecodeGivesTheInstruction :=
  fun _ h => decode_encode h

/-! ## A word read as an instruction is that instruction's word -/

theorem encode_of_decodeBroadcastOp {op : BitVec 4} {i : Instr} (h : decodeBroadcastOp op = .ok i) :
    encode i = .command (commandByte true op) := by
  unfold decodeBroadcastOp at h
  split at h <;> cases h <;> rfl

theorem encode_of_decodeUnicastOp {op : BitVec 4} {i : Instr} (h : decodeUnicastOp op = .ok i) :
    encode i = .command (commandByte false op) := by
  unfold decodeUnicastOp at h
  split at h <;> cases h <;> rfl

/-- A COMMAND byte read as a command is that command's byte (R95, R96). -/
theorem encode_eq_command_of_decodeCommand {v : Byte} {i : Instr} (h : decodeCommand v = .ok i) :
    encode i = .command v := by
  unfold decodeCommand at h
  split at h
  · cases h
  · have hv := commandByte_of_fields v (by simpa using ‹¬ commandReserved v ≠ 0#3›)
    split at h
    · rw [encode_of_decodeBroadcastOp h, ← ‹commandB v = true›, hv]
    · have hb : commandB v = false := by simpa using ‹¬ commandB v = true›
      rw [encode_of_decodeUnicastOp h, ← hb, hv]

/-- The row a write is read as has the word of that write, and is well formed (R100). -/
theorem encode_decodeWrite (a : Addr) (d : Byte) :
    encode (decodeWrite a d) = .bus (writeWord a d) ∧ (decodeWrite a d).wf = true := by
  by_cases hc : a = addrCommand
  · subst hc; exact ⟨rfl, rfl⟩
  by_cases hs : a = addrStatus
  · subst hs; exact ⟨rfl, rfl⟩
  by_cases hf : a = addrFrameAck
  · subst hf; exact ⟨rfl, rfl⟩
  have hwf : (Instr.wr a d).wf = true := (wr_wf_iff a d).2 ⟨hc, hs, hf⟩
  rw [decodeWrite_of_wf hwf]
  exact ⟨rfl, hwf⟩

/-- A bus word read as an instruction is a write's word, or a read's with D = 0 (R100, log 16). -/
theorem decodeBus_cases {w : BusWord} {i : Instr} (h : decodeBus w = .ok i) :
    (busW w = true ∧ busR w = false ∧ i = decodeWrite (busA w) (busD w)) ∨
      (busW w = false ∧ busR w = true ∧ busD w = 0#8 ∧ i = .rd (busA w)) := by
  unfold decodeBus at h
  split at h
  · cases h; exact .inl ⟨‹_›, ‹_›, rfl⟩
  · split at h <;> cases h
    exact .inr ⟨‹_›, ‹_›, ‹_›, rfl⟩
  · cases h
  · cases h

/-- A command code read as a row is that row's code (R98). -/
theorem encode_eq_frameCmd_of_decodeFrameCmd {b : Byte} {i : Instr} (h : decodeFrameCmd b = .ok i) :
    encode i = .frameCmd b := by
  unfold decodeFrameCmd at h
  repeat' split at h
  all_goals cases h
  all_goals subst b; rfl

/-- Only WR has a check, so every instruction of the other two spaces is well formed. -/
theorem wf_of_encode_ne_bus {i : Instr} (h : ∀ w, encode i ≠ .bus w) : i.wf = true := by
  cases i with
  | wr a d => exact absurd rfl (h _)
  | _ => rfl

/-- Encoding undoes decoding, and only well-formed instructions are read (R95, R96, R98, R100). -/
theorem encode_of_decode {e : Encoded} {i : Instr} (h : decode e = .ok i) : encode i = e ∧ i.wf = true := by
  cases e with
  | command v =>
    have he := encode_eq_command_of_decodeCommand h
    exact ⟨he, wf_of_encode_ne_bus (by simp [he])⟩
  | frameCmd b =>
    have he := encode_eq_frameCmd_of_decodeFrameCmd h
    exact ⟨he, wf_of_encode_ne_bus (by simp [he])⟩
  | bus w =>
    rcases decodeBus_cases h with ⟨hw, hr, rfl⟩ | ⟨hw, hr, hd, rfl⟩
    · have he := encode_decodeWrite (busA w) (busD w)
      rwa [writeWord_of_fields hw hr] at he
    · exact ⟨congrArg Encoded.bus (readWord_of_fields hw hr hd), rfl⟩

/-- Settles O2. -/
theorem decodedWordsAreEncodings : Obligations.DecodedWordsAreEncodings :=
  fun _ _ h => encode_of_decode h

/-- Settles O3: each of the nine words is closed, so the decoder runs on it. -/
theorem wordsFromTheEncodingTablesDecode : Obligations.WordsFromTheEncodingTablesDecode :=
  ⟨rfl, rfl, rfl, rfl, rfl, rfl, rfl, rfl, rfl⟩

/-! ## Illegal COMMAND bytes -/

/-- The twelve legal COMMAND values (R96, R97). -/
def legalCommands : List Byte :=
  [0x01#8, 0x02#8, 0x03#8, 0x04#8, 0x05#8, 0x06#8, 0x07#8, 0x13#8, 0x14#8, 0x15#8, 0x16#8, 0x17#8]

/-- The legal values are two ranges. -/
theorem mem_legalCommands_iff (v : Byte) :
    v ∈ legalCommands ↔ (0x01 ≤ v.toNat ∧ v.toNat ≤ 0x07) ∨ (0x13 ≤ v.toNat ∧ v.toNat ≤ 0x17) := by
  simp only [legalCommands, List.mem_cons, List.not_mem_nil, or_false, ← BitVec.toNat_inj, BitVec.toNat_ofNat,
    Nat.reducePow, Nat.reduceMod]
  omega

/-- A byte is read as a command exactly when it is legal (R97). -/
theorem decodeCommand_ok_iff (v : Byte) : (∃ i, decodeCommand v = .ok i) ↔ v ∈ legalCommands := by
  constructor
  · rintro ⟨i, h⟩
    have he := encode_eq_command_of_decodeCommand h
    cases i <;> cases he <;> decide
  · intro h
    simp only [legalCommands, List.mem_cons, List.not_mem_nil, or_false] at h
    rcases h with rfl | rfl | rfl | rfl | rfl | rfl | rfl | rfl | rfl | rfl | rfl | rfl <;> exact ⟨_, rfl⟩

/-- The decoder of COMMAND bytes has one reason to reject (R97). -/
theorem eq_illegalCommand_of_decodeCommand {v : Byte} {e : DecodeError} (h : decodeCommand v = .error e) :
    e = .illegalCommand := by
  unfold decodeCommand decodeBroadcastOp decodeUnicastOp at h
  split at h
  · cases h; rfl
  · split at h <;> split at h <;> cases h <;> rfl

theorem decodeCommand_illegal_iff (v : Byte) :
    decodeCommand v = .error .illegalCommand ↔ v ∉ legalCommands := by
  rw [← decodeCommand_ok_iff]
  cases hd : decodeCommand v with
  | ok i => simp
  | error e => simp [eq_illegalCommand_of_decodeCommand hd]

/-- The illegal values are the three ranges R97 names. -/
theorem not_mem_legalCommands_iff (v : Byte) :
    v ∉ legalCommands ↔ v.toNat = 0x00 ∨ (0x08 ≤ v.toNat ∧ v.toNat ≤ 0x12) ∨ 0x18 ≤ v.toNat := by
  rw [mem_legalCommands_iff]
  omega

/-- An accepted illegal byte raises ERR_ILLEGAL and does nothing else (R97, R261). -/
theorem commandBody_illegal {v : Byte} (h : decodeCommand v = .error .illegalCommand) (s : State) :
    commandBody v s = raiseResult errIllegal s := by
  simp only [commandBody, h]

/-- Settles O4: the legal and the illegal values are each other's complement. -/
theorem commandBytesOutsideTheTwelveAreIllegal : Obligations.CommandBytesOutsideTheTwelveAreIllegal := by
  refine ⟨decodeCommand_ok_iff, fun v => (decodeCommand_illegal_iff v).trans (not_mem_legalCommands_iff v),
    fun v s h hb => ?idle, fun v s _ hb => ?busy⟩
  case idle =>
    have hw : commandWrite v s = raiseResult errIllegal { s with doneFlag := false } :=
      (acceptCommand_idle _ _ hb).trans (commandBody_illegal h _)
    exact congrArg Host.Outcome.next hw
  case busy => exact congrArg Host.Outcome.next (acceptCommand_busy (commandBody v) s hb)

/-! ## A placed table word -/

/-- The cycle of a word that is read as an instruction drives that word (R100, log 16). -/
theorem busWord_cycleOfWord {w : BusWord} {i : Instr} (h : decodeBus w = .ok i) : busWord (cycleOfWord w) = w := by
  rcases decodeBus_cases h with ⟨hw, hr, -⟩ | ⟨hw, hr, hd, -⟩
  · rw [cycleOfWord, hw, hr, busWord_write, writeWord_of_fields hw hr]
  · rw [cycleOfWord, hw, hr, busWord_read, readWord_of_fields hw hr hd]

/-- The next step after a bus cycle is placed runs that cycle's instruction. -/
theorem step_placeCycle (s : State) {c : HostCycle} {i : Instr} (hd : s.par.Distinct)
    (hi : takeTurn (.host c) s = exec i s) :
    ∃ u, exec i s = .next u ∧ step (placeCycle c s) = .next (observeOutputs (placeCycle c s) u) :=
  step_of_exec (placeCycle c s) s (.host c) s.sched i hd rfl hi

/-- The next step after a COMMAND byte is placed runs the byte's row (R261). -/
theorem step_placeCycle_command (s : State) {v : Byte} {i : Instr} (hd : s.par.Distinct)
    (hi : decodeCommand v = .ok i) :
    ∃ u, exec i s = .next u ∧ step (placeCycle ⟨true, false, addrCommand, v⟩ s) =
      .next (observeOutputs (placeCycle ⟨true, false, addrCommand, v⟩ s) u) :=
  step_placeCycle s hd ((takeTurn_hostWriteTurn addrCommand v s).trans (exec_of_decodeCommand v i s hi).symm)

/-- The next step after a bus word is placed runs the word's row (R100). -/
theorem step_placeCycle_bus (s : State) {w : BusWord} {i : Instr} (hd : s.par.Distinct) (hi : decodeBus w = .ok i) :
    ∃ u, exec i s = .next u ∧ step (placeCycle (cycleOfWord w) s) =
      .next (observeOutputs (placeCycle (cycleOfWord w) s) u) :=
  step_placeCycle s hd
    (takeTurn_host_of_decodeBus (cycleOfWord w) s i ((congrArg decodeBus (busWord_cycleOfWord hi)).trans hi))

/-- The state in which the command code of a placed frame runs: the frame has just been found valid (log 14). -/
def placedFrameValid (b : Byte) (s : State) : State :=
  { s with
    life := .running
    lock := .none
    rx := { s.rx with
      phase := .chkEot, wcnt := 0#3, hCmd := b, cursor := s.rx.hLen, trl := s.rx.acc, idle := 0#32 } }

/-- The next step after a command code is placed runs the code's row (R173). -/
theorem step_placeFrameCmd (s : State) {b : Byte} {i : Instr} (hd : s.par.Distinct) (hi : decodeFrameCmd b = .ok i) :
    ∃ u, exec i (placedFrameValid b s) = .next u ∧
      step (placeFrameCmd b s) = .next (observeOutputs (placeFrameCmd b s) u) :=
  step_of_exec (placeFrameCmd b s) (placedFrameValid b s) .rxf s.sched i hd rfl
    (takeTurn_rxf_of_valid_trailer { placeFrameCmd b s with sched := s.sched } s.rxIn i rfl rfl rfl hi)

/-- A byte of the table is read as a COMMAND byte, or as a frame's command code (log 12). -/
theorem tableByteSpace_cases {b : Byte} {i : Instr} (h : decode (tableByteSpace b) = .ok i) :
    (tableByteSpace b = .command b ∧ decodeCommand b = .ok i) ∨
      (tableByteSpace b = .frameCmd b ∧ decodeFrameCmd b = .ok i) := by
  unfold tableByteSpace at h ⊢
  split at h
  · exact .inl ⟨rfl, h⟩
  · exact .inr ⟨rfl, h⟩
  · exact .inl ⟨rfl, h⟩

theorem eq_ok_of_toOption_eq_some {r : Except DecodeError Instr} {i : Instr} (h : r.toOption = some i) :
    r = .ok i := by
  cases r with
  | ok j => cases h; rfl
  | error e => cases h

/-- What `withFetchWord` places for a table word that is read as `i` (log 12, log 14). -/
theorem withFetchWord_cases (s : State) {nbits w : Nat} {i : Instr} (h : decodeTableWord nbits w = some i) :
    (∃ v, decodeCommand v = .ok i ∧ s.withFetchWord nbits w = placeCycle ⟨true, false, addrCommand, v⟩ s) ∨
      (∃ v, decodeBus v = .ok i ∧ s.withFetchWord nbits w = placeCycle (cycleOfWord v) s) ∨
      (∃ b, decodeFrameCmd b = .ok i ∧ s.withFetchWord nbits w = placeFrameCmd b s) := by
  unfold decodeTableWord at h
  unfold State.withFetchWord placeWord
  split at h <;> rename_i hn
  · split at h
    · rw [if_pos hn]
      rcases tableByteSpace_cases (eq_ok_of_toOption_eq_some h) with ⟨ht, hi⟩ | ⟨ht, hi⟩ <;> rw [ht]
      · exact .inl ⟨_, hi, rfl⟩
      · exact .inr (.inr ⟨_, hi, rfl⟩)
    · cases h
  · split at h
    · rw [if_neg hn]
      exact .inr (.inl ⟨_, eq_ok_of_toOption_eq_some h, rfl⟩)
    · cases h

/-- Settles O58: the three ways a word is placed. -/
theorem placedTableWordRunsNext : Obligations.PlacedTableWordRunsNext := by
  intro s nbits w i hd h
  rcases withFetchWord_cases s h with ⟨v, hi, hw⟩ | ⟨v, hi, hw⟩ | ⟨b, hi, hw⟩ <;> rw [hw]
  · have he := encode_eq_command_of_decodeCommand hi
    exact ⟨fun _ => step_placeCycle_command s hd hi, fun b hb => by rw [he] at hb; cases hb⟩
  · have he := (encode_of_decode (e := .bus v) hi).1
    exact ⟨fun _ => step_placeCycle_bus s hd hi, fun b hb => by rw [he] at hb; cases hb⟩
  · have he := encode_eq_frameCmd_of_decodeFrameCmd hi
    refine ⟨fun hn => absurd he (hn b), fun b' hb => ?_⟩
    obtain rfl : b = b' := by rw [he] at hb; cases hb; rfl
    exact step_placeFrameCmd s hd hi

/-! ## The rows of a frame's command code -/

/-- Settles O31: PING queues the PONG, the other five deliver. -/
theorem frameCommandsAnswerOrDeliver : Obligations.FrameCommandsAnswerOrDeliver := by
  intro s
  refine ⟨rfl, fun i hi => ?_⟩
  simp only [List.mem_cons, List.not_mem_nil, or_false] at hi
  rcases hi with rfl | rfl | rfl | rfl | rfl <;> rfl

end Sys2Proof.Machine
end

section
/-! PROOFS of the family 40_frame_codec.md, first part: the checksum (O49), and the two accumulators that hold it while
a frame is received (O39) and sent (O48). -/

namespace Sys2Proof.Machine
open Sys2Proof.Safety

/-! ## The checksum -/

@[simp] theorem sumBytes_append (p q : List Byte) : sumBytes (p ++ q) = sumBytes p + sumBytes q := by
  induction p with
  | nil => simp [sumBytes]
  | cons b p ih => simp [sumBytes, ih, BitVec.add_assoc]

theorem sumBytes_perm {p q : List Byte} (h : p.Perm q) : sumBytes p = sumBytes q := by
  induction h with
  | nil => rfl
  | cons b _ ih => simp [sumBytes, ih]
  | swap a b p => exact add_left_comm _ _ _
  | trans _ _ ih1 ih2 => exact ih1.trans ih2

theorem toNat_sumBytes (p : List Byte) : (sumBytes p).toNat = (p.map BitVec.toNat).sum % 256 := by
  induction p with
  | nil => rfl
  | cons b p ih => simp [sumBytes, BitVec.toNat_add, ih]

/-- With no payload byte yet the checksum is the header's sum (R130). -/
@[simp] theorem checksum_nil (d o c l : Byte) : checksum d o c l [] = d + o + c + l := by
  simp [checksum, sumBytes]

/-- One more payload byte is added to the checksum (R132, R133). -/
@[simp] theorem checksum_snoc (d o c l : Byte) (p : List Byte) (b : Byte) :
    checksum d o c l (p ++ [b]) = checksum d o c l p + b := by
  simp [checksum, sumBytes, BitVec.add_assoc]

/-- Settles O49: the number of a sum of bytes is the sum of their numbers modulo 256, and a sum has no order. -/
theorem checksumIsTheSumModulo256 : Obligations.ChecksumIsTheSumModulo256 := by
  refine ⟨fun d o c l p => ?_, fun d o c l p q h => ?_, by decide⟩
  · simp only [checksum, BitVec.toNat_add, toNat_sumBytes]
    omega
  · rw [checksum, checksum, sumBytes_perm h]

/-! ## The receiver's accumulator -/

/-- The receiver's accumulator and its latched checksum byte are right (R133). -/
structure RxSums (s : State) : Prop where
  acc : ReceiveChecksum s
  trl : DeliveredChecksum s

/-- The parser seeks or waits for the lock: no frame is being received, answered or delivered. -/
def BeforeFrame (p : RxPhase) : Prop := p = .seek ∨ p = .waitLock

theorem RxSums.of_beforeFrame {s : State} (h : BeforeFrame s.rx.phase) : RxSums s := by
  rcases h with h | h <;> exact ⟨by simp [ReceiveChecksum, h, RxPhase.holdsLock], by simp [DeliveredChecksum, h]⟩

theorem rxbufBytes_congr {s t : State} (h : ∀ i, rxbuf t i = rxbuf s i) (n : Nat) : rxbufBytes t n = rxbufBytes s n :=
  List.map_congr_left fun i _ => h i

/-- RXBUF up to an index, and the byte at it. -/
theorem rxbufBytes_succ (s : State) (n : Nat) : rxbufBytes s (n + 1) = rxbufBytes s n ++ [rxbuf s n] := by
  simp [rxbufBytes, List.range_succ]

/-- A byte stored behind the first `n` of RXBUF leaves those as they are. -/
theorem rxbufBytes_storeRxbuf (s : State) (n : Nat) (b : Byte) :
    rxbufBytes (storeRxbuf n b s) n = rxbufBytes s n :=
  List.map_congr_left fun i hi => rxbuf_storeRxbuf_other s n i b (Nat.ne_of_lt (List.mem_range.1 hi))

theorem RxSums.of_same {s t : State} (h : RxSums s) (hr : t.rx = s.rx) (hb : ∀ i, rxbuf t i = rxbuf s i) :
    RxSums t := by
  obtain ⟨ha, ht⟩ := h
  exact ⟨by rw [ReceiveChecksum, hr, rxbufBytes_congr hb]; exact ha, by rw [DeliveredChecksum, hr]; exact ht⟩

/-- The parser moves on with its accumulator, its cursor and the header as they are. -/
theorem RxSums.move {s t : State} (h : RxSums s) {p : RxPhase} {trl : Byte} {idle : BitVec 32}
    (hf : s.rx.phase.holdsLock = true ∨ s.rx.phase = .pongWait ∨ s.rx.phase = .deliver)
    (hr : t.rx = { s.rx with phase := p, trl := trl, idle := idle }) (hb : t.buf = s.buf)
    (hp : t.powerUp = s.powerUp) (ht : p = .pongWait ∨ p = .deliver → trl = s.rx.acc) : RxSums t := by
  have hx : ∀ i, rxbuf t i = rxbuf s i := fun i => readBuf_congr s t hb hp _
  refine ⟨fun _ => ?_, fun hd => ?_⟩
  · rw [hr, rxbufBytes_congr hx]
    exact h.acc hf
  · rw [hr] at hd ⊢
    exact ht hd

/-! ### HOST -/

/-- What a COMMAND byte does to the parser: nothing, or it seeks. -/
theorem commandBody_rx (v : Byte) (s : State) :
    (commandBody v s).rx = s.rx ∨ (commandBody v s).rx.phase = .seek := by
  rcases commandBody_cases v s with ⟨c, -, h⟩ | ⟨-, -, -, -, -, h⟩ | ⟨-, -, ⟨-, h⟩ | ⟨-, h⟩⟩ | ⟨-, -, k, b, l, -, h⟩ <;>
    rw [h]
  · exact .inl rfl
  · exact .inr rfl
  · exact .inr rfl
  · exact .inl rfl
  · exact .inl rfl

/-- What a host write does to the parser: nothing, or it seeks. -/
theorem hostWrite_rx (a : Addr) (v : Byte) (s : State) :
    (hostWrite a v s).rx = s.rx ∨ (hostWrite a v s).rx.phase = .seek := by
  rcases hostWrite_cases a v s with ⟨-, h⟩ | ⟨-, h⟩ | ⟨-, h⟩ | ⟨i, -, -, h⟩ | h
  · rw [h, commandWrite]
    cases hb : cmdBusy s with
    | true => rw [acceptCommand_busy _ _ hb]; exact .inl rfl
    | false => rw [acceptCommand_idle _ _ hb]; exact commandBody_rx v _
  · rcases statusWrite_cases v s with he | ⟨-, he⟩ <;> rw [h, he] <;> exact .inl rfl
  · rcases frameAckWrite_cases s with ⟨-, he⟩ | ⟨-, he⟩ <;> rw [h, he]
    · exact .inl rfl
    · exact .inr rfl
  · rw [h]; exact .inl rfl
  · rw [h.rest]; exact .inl rfl

/-- No host write reaches RXBUF (R69). -/
theorem rxbuf_hostWrite (a : Addr) (v : Byte) (s : State) (i : Nat) : rxbuf (hostWrite a v s) i = rxbuf s i := by
  rcases readBuf_hostWrite a v s (rxbufBase + i) with h | ⟨-, -, h, -⟩
  · exact h
  · simp only [rxbufBase] at h
    omega

theorem RxSums.hostTurn {s t : State} (h : RxSums s) {c : HostCycle} (ht : hostTurn c s = .next t) : RxSums t := by
  rcases hostTurn_cases ht with rfl | rfl | ⟨a, v, -, rfl⟩
  · exact h
  · exact h.of_same rfl fun _ => rfl
  · rcases hostWrite_rx a v s with hr | hr
    · exact h.of_same hr (rxbuf_hostWrite a v s)
    · exact .of_beforeFrame (.inl hr)

/-! ### RXF -/

/-- The grant starts the accumulator with the header's sum (R168). -/
theorem rxGrant_sums {s : State} : RxSums (rxGrant s) := by
  unfold rxGrant
  split
  · refine ⟨fun _ => by simp [rxbufBytes], ?_⟩
    simp only [DeliveredChecksum]
    split <;> simp
  · exact .of_beforeFrame (.inl rfl)

/-- RX.COLLECT stores a byte behind those collected and adds it to the accumulator (R169). -/
theorem RxSums.collect {s : State} (h : RxSums s) (hp : s.rx.phase = .collect) (hc : s.rx.cursor ≠ 0xFF#8) (b : Byte) :
    RxSums (storeRxbuf s.rx.cursor.toNat b
      { s with rx := { s.rx with
          acc := s.rx.acc + b, cursor := s.rx.cursor + 1#8, idle := 0#32
          phase := if s.rx.cursor + 1#8 = s.rx.hLen then .chkEtx else .collect } }) := by
  have hn : (s.rx.cursor + 1#8).toNat = s.rx.cursor.toNat + 1 := by bv_omega
  have ha := h.acc (.inl (by rw [hp]; rfl))
  refine ⟨fun _ => ?_, ?_⟩
  · simp only [storeRxbuf_rx, hn, rxbufBytes_succ, rxbufBytes_storeRxbuf, rxbuf_storeRxbuf_same, checksum_snoc]
    rw [ha]
    rfl
  · simp only [DeliveredChecksum, storeRxbuf_rx]
    split <;> simp

theorem RxSums.rxByte {b : Byte} {u t : State} (h : RxSums u) (hr : RxByteResult b u t) : RxSums t := by
  cases hr with
  | discard => exact h
  | header => exact .of_beforeFrame (.inr rfl)
  | shift hp => exact .of_beforeFrame (.inl hp)
  | collect hp hc => exact h.collect hp hc b
  | etxOk hp => exact h.move (.inl (by rw [hp]; rfl)) rfl rfl rfl (by simp)
  | etxBad => exact .of_beforeFrame (.inl rfl)
  | readChk hp => exact h.move (.inl (by rw [hp]; rfl)) rfl rfl rfl (by simp)
  | eotPing hp _ ht => exact h.move (.inl (by rw [hp]; rfl)) rfl rfl rfl fun _ => ht
  | eotDeliver hp _ ht => exact h.move (.inl (by rw [hp]; rfl)) rfl rfl rfl fun _ => ht
  | eotBad => exact .of_beforeFrame (.inl rfl)

theorem RxSums.rxfTurn {s t : State} (h : RxSums s) (ht : rxfTurn s = .next t) : RxSums t := by
  rcases rxfTurn_cases s t ht with rfl | ⟨-, -, rfl⟩ | ⟨b, q, -, -, hr⟩
  · exact h
  · exact rxGrant_sums
  · exact (h.of_same (t := rxTake s) rfl fun _ => rfl).rxByte hr

/-! ### TXE and TMR -/

/-- Of the engine's steps only the flush of a PONG moves the parser, from RX_PONG_WAIT to RX_DELIVER (R233). -/
theorem RxSums.txeTurn {s t : State} (h : RxSums s) (hi : Inv s) (ht : txeTurn s = .next t) : RxSums t := by
  rcases txeTurn_cases s t ht with rfl | hr
  · exact h
  · cases hr with
    | flushPong hp _ hl =>
      obtain ⟨-, hw⟩ := hi.pong_flush hp hl
      exact h.move (.inr (.inl hw)) rfl rfl rfl fun _ => h.trl (.inl hw)
    | _ => exact h.of_same rfl fun _ => rfl

theorem RxSums.idleTick {s : State} (h : RxSums s) : RxSums (idleTick s) := by
  rw [idleTick_frame]
  exact ⟨h.acc, h.trl⟩

theorem RxSums.idleAbort {s : State} (h : RxSums s) : RxSums (idleAbort s) := by
  rcases idleAbort_cases s with he | ⟨-, -, -, he⟩ <;> rw [he]
  · exact h
  · exact .of_beforeFrame (.inl rfl)

/-! ### Every step -/

theorem RxSums.takeTurn {s u : State} (h : RxSums s) (hi : Inv s) {turn : Turn} (hu : takeTurn turn s = .next u) :
    RxSums u := by
  cases turn with
  | host c => exact h.hostTurn hu
  | ctl => cases hu; rw [closeDone_frame]; exact h.of_same rfl fun _ => rfl
  | rxf => exact h.rxfTurn hu
  | txe => exact h.txeTurn hi hu
  | tick => cases hu; exact h.idleTick
  | idleAbort => cases hu; exact h.idleAbort
  | env e => cases hu; rw [envTurn_frame]; exact h.of_same rfl fun _ => rfl
  | rst c => cases hu; exact .of_beforeFrame (.inl rfl)

theorem RxSums.step {s t : State} (h : RxSums s) (hi : Inv s) (ht : step s = .next t) : RxSums t := by
  obtain ⟨-, ⟨-, rfl⟩ | ⟨turn, rest, u, -, hu, rfl⟩⟩ := step_cases s t ht
  · exact h
  · have hi' : Inv { s with sched := rest } := { hi with }
    have hs : RxSums { s with sched := rest } := ⟨h.acc, h.trl⟩
    obtain ⟨ha, hd⟩ : RxSums u := hs.takeTurn hi' hu
    rw [observeOutputs_eq]
    exact ⟨ha, hd⟩

/-- Settles O39: every agent's turn keeps both sums. -/
theorem receiveChecksumIsKept : Obligations.ReceiveChecksumIsKept := by
  intro s t hinv ha hd h
  obtain ⟨ha', hd'⟩ := RxSums.step ⟨ha, hd⟩ ((machineInv_iff s).1 hinv) h
  exact ⟨ha', hd'⟩

/-! ## The engine's accumulator -/

/-- PB(J, i) depends on the lock, the jobs and the buffers alone (R221). -/
theorem payloadByte_congr {s t : State} (hl : t.lock = s.lock) (hh : t.hjob = s.hjob) (hq : t.pjob = s.pjob)
    (hb : t.buf = s.buf) (hp : t.powerUp = s.powerUp) : payloadByte t = payloadByte s := by
  funext i
  simp only [payloadByte, hostPayloadByte, txbuf, rxbuf, hl, hh, hq, readBuf_congr s t hb hp]

@[simp] theorem sentPayload_zero (s : State) : sentPayload s 0 = [] := rfl

theorem sentPayload_congr {s t : State} {n : Nat} (h : ∀ i < n, payloadByte t i = payloadByte s i) :
    sentPayload t n = sentPayload s n :=
  List.map_congr_left fun i hi => by rw [h i (List.mem_range.1 hi)]

theorem sentPayload_succ {s : State} {n : Nat} {b : Byte} (h : payloadByte s n = some b) :
    sentPayload s (n + 1) = sentPayload s n ++ [b] := by
  simp [sentPayload, List.range_succ, h]

/-- The engine is idle. -/
theorem transmitChecksum_of_idle {s : State} (h : s.tx.phase = .idle) : TransmitChecksum s := by
  intro j _
  simp only [h]

/-- A step of the engine keeps what its accumulator is: the grant clears it, and each byte of the header and the
payload that is sent is added (R222 to R232). -/
theorem TxResult.transmitChecksum {s t : State} (hi : Inv s) (hc : TransmitChecksum s) (h : TxResult s t) :
    TransmitChecksum t := by
  cases h with
  | grantPong => exact fun _ _ => rfl
  | grantHost => exact fun _ _ => rfl
  | soh hp =>
    intro j hj
    have ha : s.tx.acc = 0x00#8 := by simpa only [hp] using hc j hj
    by_cases he : s.tx.idx + 1#8 = s.cfg.sohN <;> simp [txSohStep, he, ha]
  | dest hp j hj | orig hp j hj | cmd hp j hj | len hp j hj =>
    intro j' hj'
    cases hj.symm.trans hj'
    have ha := hc j hj
    simp only [hp] at ha
    simp [txDestStep, txOrigStep, txCmdStep, txLenStep, txGo, ha]
  | stx hp j hj =>
    intro j' hj'
    cases hj.symm.trans hj'
    have ha : s.tx.acc = j.dest + j.orig + j.cmd + j.len := by simpa only [hp] using hc j hj
    by_cases hz : j.len = 0x00#8 <;> simp [txStxStep, hz, ha]
  | payload hp j hj b hb =>
    intro j' hj'
    cases hj.symm.trans hj'
    have ha : s.tx.acc = checksum j.dest j.orig j.cmd j.len (sentPayload s s.tx.idx.toNat) := by
      simpa only [hp] using hc j hj
    have hlt := (engineIndex_payload_iff hp hj).1 hi.index
    have hn : (s.tx.idx + 1#8).toNat = s.tx.idx.toNat + 1 := by bv_omega
    have hs : sentPayload (txPayloadSend j b s) (s.tx.idx.toNat + 1) = sentPayload s s.tx.idx.toNat ++ [b] :=
      sentPayload_succ hb
    have hacc : (txPayloadSend j b s).tx.acc =
        checksum j.dest j.orig j.cmd j.len (sentPayload (txPayloadSend j b s) (s.tx.idx.toNat + 1)) := by
      rw [hs, checksum_snoc, ← ha]
      rfl
    have hph : (txPayloadSend j b s).tx.phase = if s.tx.idx + 1#8 = j.len then .etx else .payload := rfl
    by_cases he : s.tx.idx + 1#8 = j.len
    · rw [← hn, he] at hacc
      simp only [hph, if_pos he]
      exact hacc
    · rw [← hn] at hacc
      simp only [hph, if_neg he]
      exact hacc
  | etx hp =>
    intro j hj
    have ha : s.tx.acc = checksum j.dest j.orig j.cmd j.len (sentPayload s j.len.toNat) := by
      simpa only [hp] using hc j hj
    exact ha
  | chk => exact fun _ _ => trivial
  | eot => exact fun _ _ => trivial
  | flushHost => exact transmitChecksum_of_idle rfl
  | flushPong => exact transmitChecksum_of_idle rfl

/-! ### The other agents while the engine sends -/

/-- The engine, the lock and the job served are as before, and so is every payload byte of that job. -/
structure ServiceKept (s u : State) : Prop where
  tx : u.tx = s.tx
  lock : u.lock = s.lock
  job : currentJob u = currentJob s
  payload : ∀ i < 255, payloadByte u i = payloadByte s i

theorem ServiceKept.refl (s : State) : ServiceKept s s := ⟨rfl, rfl, rfl, fun _ _ => rfl⟩

/-- The service depends on the engine, the lock, the jobs and the buffers. -/
theorem ServiceKept.of_same {s u : State} (hx : u.tx = s.tx) (hl : u.lock = s.lock) (hh : u.hjob = s.hjob)
    (hq : u.pjob = s.pjob) (hb : u.buf = s.buf) (hp : u.powerUp = s.powerUp) : ServiceKept s u :=
  ⟨hx, hl, by simp only [currentJob, hl, hh, hq], fun i _ => by rw [payloadByte_congr hl hh hq hb hp]⟩

theorem ServiceKept.transmitChecksum {s u : State} (h : ServiceKept s u) (hc : TransmitChecksum s) :
    TransmitChecksum u := by
  intro j hj
  rw [h.job] at hj
  have hp : ∀ n ≤ 255, sentPayload u n = sentPayload s n := fun n hn =>
    sentPayload_congr fun i hx => h.payload i (by omega)
  have hcj := hc j hj
  rw [h.tx, hp _ (by omega), hp _ (by omega)]
  exact hcj

/-- The service of a PONG depends on the PONG job and on RXBUF. -/
theorem ServiceKept.of_pong {s u : State} (ho : s.lock = .txp) (hx : u.tx = s.tx) (hl : u.lock = s.lock)
    (hq : u.pjob = s.pjob) (hb : ∀ i, rxbuf u i = rxbuf s i) : ServiceKept s u :=
  ⟨hx, hl, by simp only [currentJob, hl, ho, hq], fun i _ => by simp only [payloadByte, hl, ho, hq, hb]⟩

theorem Inv.running_of_tx {s : State} (h : Inv s) (hp : s.tx.phase ≠ .idle) (hc : s.life ≠ .closing) :
    s.life = .running := by
  have ha := h.alive_of_tx hp
  cases hl : s.life <;> simp_all

/-- A COMMAND byte accepted while a PONG is sent: an OPEN is refused, a CLOSE leaves the lock, a send only waits. -/
theorem ServiceKept.commandBody {s : State} (hi : Inv s) (hp : s.tx.phase ≠ .idle) (hb : cmdBusy s = false) (v : Byte)
    (ho : s.lock = .txp) : ServiceKept s (commandBody v s) := by
  rcases commandBody_cases v s with ⟨c, -, h⟩ | ⟨-, hn, -, -, -, -⟩ | ⟨-, -, ⟨-, h⟩ | ⟨-, h⟩⟩ | ⟨-, -, k, b, l, -, h⟩
  · rw [h]; exact .of_same rfl rfl rfl rfl rfl rfl
  · exact absurd (hi.running_of_tx hp ((cmdBusy_false_iff s).1 hb).2) hn
  · rw [h]; exact .of_same rfl (by simp [beginClose, abandonFrame, ho]) rfl rfl rfl rfl
  · rw [h]; exact .of_same rfl rfl rfl rfl rfl rfl
  · rw [h]; exact .of_pong ho rfl rfl rfl fun _ => rfl

/-- A host write does not reach the job being sent: while it is the host job CMD_BUSY = 1, and a PONG has its own
record and RXBUF (R68, R69). -/
theorem ServiceKept.hostWrite {s : State} (hi : Inv s) (hp : s.tx.phase ≠ .idle) (a : Addr) (v : Byte) :
    ServiceKept s (hostWrite a v s) := by
  cases hb : cmdBusy s with
  | true => rw [hostWrite_of_busy hb]; exact .of_same rfl rfl rfl rfl rfl rfl
  | false =>
    have hj := ((cmdBusy_false_iff s).1 hb).1
    have ho : s.lock = .txp := (hi.engine.1 hp).resolve_left fun hx => by simp [hi.job.1 hx] at hj
    rcases hostWrite_cases a v s with ⟨-, h⟩ | ⟨-, h⟩ | ⟨-, h⟩ | ⟨i, -, -, h⟩ | h
    · rw [h, commandWrite, acceptCommand_idle _ _ hb]
      obtain ⟨hx, hl, hj, hq⟩ := ServiceKept.commandBody hi.clearDone hp hb v ho
      exact ⟨hx, hl, hj, hq⟩
    · rcases statusWrite_cases v s with he | ⟨-, he⟩ <;> rw [h, he] <;> exact .of_same rfl rfl rfl rfl rfl rfl
    · rcases frameAckWrite_cases s with ⟨-, he⟩ | ⟨-, he⟩ <;> rw [h, he] <;> exact .of_same rfl rfl rfl rfl rfl rfl
    · rw [h]
      exact .of_pong ho rfl rfl rfl fun k => rxbuf_storeTxbuf s _ k v (Nat.le_of_lt_succ i.isLt)
    · rw [h.rest]; exact .of_same rfl rfl rfl rfl rfl rfl

theorem Inv.not_holdsLock {s : State} (h : Inv s) (hp : s.tx.phase ≠ .idle) : s.rx.phase.holdsLock ≠ true :=
  fun hx => hp (h.of_holdsLock hx).1

/-- While the engine sends, the receiver takes bytes only to seek (R290). -/
theorem ServiceKept.rxfTurn {s u : State} (hi : Inv s) (hp : s.tx.phase ≠ .idle) (h : rxfTurn s = .next u) :
    ServiceKept s u := by
  have hf := hi.not_holdsLock hp
  rcases rxfTurn_cases s u h with rfl | ⟨-, hl, -⟩ | ⟨b, q, -, -, hr⟩
  · exact .refl u
  · exact absurd (hi.engine.1 hp) (by simp [EngineHolds, hl])
  · cases hr with
    | discard => exact .of_same rfl rfl rfl rfl rfl rfl
    | header => exact .of_same rfl rfl rfl rfl rfl rfl
    | shift => exact .of_same rfl rfl rfl rfl rfl rfl
    | _ hq => exact absurd (show s.rx.phase.holdsLock = true by rw [show s.rx.phase = _ from hq]; rfl) hf

/-- R290: no other agent's turn but a reset reaches the job being sent. -/
theorem ServiceKept.takeTurn {s u : State} (hi : Inv s) (hp : s.tx.phase ≠ .idle) {turn : Turn} (ht : turn ≠ .txe)
    (hr : ¬ IsReset turn) (h : takeTurn turn s = .next u) : ServiceKept s u := by
  have hl := hi.engine.1 hp
  cases turn with
  | host c =>
    rcases hostTurn_cases h with rfl | rfl | ⟨a, v, -, rfl⟩
    · exact .refl u
    · exact .of_same rfl rfl rfl rfl rfl rfl
    · exact .hostWrite hi hp a v
  | ctl => cases h; rw [closeDone_frame]; exact .of_same rfl rfl rfl rfl rfl rfl
  | rxf => exact .rxfTurn hi hp h
  | txe => exact absurd rfl ht
  | tick => cases h; rw [idleTick_frame]; exact .of_same rfl rfl rfl rfl rfl rfl
  | idleAbort =>
    cases h
    rcases idleAbort_cases s with he | ⟨hx, -, -, -⟩
    · rw [he]; exact .refl s
    · exact absurd hx (hi.not_holdsLock hp)
  | env e => cases h; rw [envTurn_frame]; exact .of_same rfl rfl rfl rfl rfl rfl
  | rst c => exact absurd ⟨c, rfl⟩ hr

/-- A host write leaves an idle engine idle. -/
theorem hostWrite_tx_idle {s : State} (hp : s.tx.phase = .idle) (a : Addr) (v : Byte) :
    (hostWrite a v s).tx.phase = .idle := by
  rcases hostWrite_cases a v s with ⟨-, h⟩ | ⟨-, h⟩ | ⟨-, h⟩ | ⟨i, -, -, h⟩ | h
  · rw [h, commandWrite]
    cases hb : cmdBusy s with
    | true => rw [acceptCommand_busy _ _ hb]; exact hp
    | false =>
      rw [acceptCommand_idle _ _ hb]
      rcases commandBody_cases v { s with doneFlag := false } with ⟨c, -, h⟩ | ⟨-, -, -, -, -, h⟩ |
        ⟨-, -, ⟨-, h⟩ | ⟨-, h⟩⟩ | ⟨-, -, k, b, l, -, h⟩ <;> rw [h]
      case inr.inl => rfl
      all_goals exact hp
  · rcases statusWrite_cases v s with he | ⟨-, he⟩ <;> rw [h, he] <;> exact hp
  · rcases frameAckWrite_cases s with ⟨-, he⟩ | ⟨-, he⟩ <;> rw [h, he] <;> exact hp
  · rw [h]; exact hp
  · rw [h.rest]; exact hp

/-- Only the engine leaves T_IDLE. -/
theorem takeTurn_tx_idle {turn : Turn} {s u : State} (hp : s.tx.phase = .idle) (ht : turn ≠ .txe)
    (h : takeTurn turn s = .next u) : u.tx.phase = .idle := by
  cases turn with
  | host c =>
    rcases hostTurn_cases h with rfl | rfl | ⟨a, v, -, rfl⟩
    · exact hp
    · exact hp
    · exact hostWrite_tx_idle hp a v
  | ctl => cases h; rw [closeDone_frame]; exact hp
  | rxf => rw [rxfTurn_frame h]; exact hp
  | txe => exact absurd rfl ht
  | tick => cases h; rw [idleTick_frame]; exact hp
  | idleAbort => cases h; rw [idleAbort_frame]; exact hp
  | env e => cases h; rw [envTurn_frame]; exact hp
  | rst c => cases h; rfl

/-! ### Every step -/

theorem takeTurn_transmitChecksum {turn : Turn} {s u : State} (hi : Inv s) (hc : TransmitChecksum s)
    (h : takeTurn turn s = .next u) : TransmitChecksum u := by
  by_cases ht : turn = .txe
  · subst ht
    rcases txeTurn_cases s u h with rfl | hr
    · exact hc
    · exact hr.transmitChecksum hi hc
  · by_cases hr : IsReset turn
    · obtain ⟨c, rfl⟩ := hr
      cases h
      exact transmitChecksum_of_idle rfl
    · by_cases hp : s.tx.phase = .idle
      · exact transmitChecksum_of_idle (takeTurn_tx_idle hp ht h)
      · exact (ServiceKept.takeTurn hi hp ht hr h).transmitChecksum hc

theorem step_transmitChecksum {s t : State} (hi : Inv s) (hc : TransmitChecksum s) (h : step s = .next t) :
    TransmitChecksum t := by
  obtain ⟨-, ⟨-, rfl⟩ | ⟨turn, rest, u, -, hu, rfl⟩⟩ := step_cases s t h
  · exact hc
  · have hi' : Inv { s with sched := rest } := { hi with }
    have hx : TransmitChecksum u := takeTurn_transmitChecksum hi' hc hu
    rw [observeOutputs_eq]
    exact hx

/-- Settles O48: the engine's own steps extend the sum, and no other agent reaches the job it is a sum of. -/
theorem transmitChecksumIsKept : Obligations.TransmitChecksumIsKept :=
  fun s _ hinv hc h => step_transmitChecksum ((machineInv_iff s).1 hinv) hc h

end Sys2Proof.Machine
end

section
/-! PROOFS of the family 40_frame_codec.md, second part: what the engine transmits. Each byte is the next one of
EncodeFrame of its job (O43), so a granted job puts exactly its frame on the line, and a PING is delivered after its
PONG (O46). -/

namespace Sys2Proof.Machine
open Sys2Proof.Safety

/-! ## The bytes of a frame by their position (R90, R134) -/

section FramePositions
variable (k : Config.Params) (n : Nat) (d o c : Byte) (p : List Byte)

@[simp] theorem length_encodeFrame : (encodeFrame k n d o c p).length = n + p.length + 8 := by
  simp [encodeFrame]
  omega

theorem encodeFrame_soh {i : Nat} (h : i < n) : (encodeFrame k n d o c p)[i]? = some k.soh := by
  simp [encodeFrame, List.getElem?_append_left, h]

/-- Behind the start sentinels: the header, the payload and the trailer. -/
theorem encodeFrame_behind_soh (i : Nat) :
    (encodeFrame k n d o c p)[n + i]? =
      ([d, o, c, BitVec.ofNat 8 p.length, k.stx] ++ p ++
        [k.etx, checksum d o c (BitVec.ofNat 8 p.length) p, k.eot])[i]? := by
  rw [encodeFrame, List.append_assoc, List.append_assoc, List.getElem?_append_right (by simp)]
  simp

theorem encodeFrame_payload {i : Nat} (h : i < p.length) : (encodeFrame k n d o c p)[n + 5 + i]? = p[i]? := by
  rw [Nat.add_assoc, encodeFrame_behind_soh, List.append_assoc, List.getElem?_append_right (by simp),
    List.getElem?_append_left (by simpa using h)]
  simp

theorem encodeFrame_trailer {l : Nat} (hl : p.length = l) (i : Nat) :
    (encodeFrame k n d o c p)[n + 5 + l + i]? = [k.etx, checksum d o c (BitVec.ofNat 8 l) p, k.eot][i]? := by
  subst hl
  rw [Nat.add_assoc, Nat.add_assoc, encodeFrame_behind_soh, List.getElem?_append_right (by simp; omega)]
  congr 1
  simp
  omega

theorem encodeFrame_dest : (encodeFrame k n d o c p)[n]? = some d := encodeFrame_behind_soh k n d o c p 0
theorem encodeFrame_orig : (encodeFrame k n d o c p)[n + 1]? = some o := encodeFrame_behind_soh k n d o c p 1
theorem encodeFrame_cmd : (encodeFrame k n d o c p)[n + 2]? = some c := encodeFrame_behind_soh k n d o c p 2
theorem encodeFrame_len : (encodeFrame k n d o c p)[n + 3]? = some (BitVec.ofNat 8 p.length) :=
  encodeFrame_behind_soh k n d o c p 3
theorem encodeFrame_stx : (encodeFrame k n d o c p)[n + 4]? = some k.stx := encodeFrame_behind_soh k n d o c p 4
theorem encodeFrame_etx {l : Nat} (hl : p.length = l) : (encodeFrame k n d o c p)[n + 5 + l]? = some k.etx :=
  encodeFrame_trailer k n d o c p hl 0
theorem encodeFrame_chk {l : Nat} (hl : p.length = l) :
    (encodeFrame k n d o c p)[n + 6 + l]? = some (checksum d o c (BitVec.ofNat 8 l) p) := by
  rw [show n + 6 + l = n + 5 + l + 1 by omega, encodeFrame_trailer k n d o c p hl]; rfl
theorem encodeFrame_eot {l : Nat} (hl : p.length = l) : (encodeFrame k n d o c p)[n + 7 + l]? = some k.eot := by
  rw [show n + 7 + l = n + 5 + l + 2 by omega, encodeFrame_trailer k n d o c p hl]; rfl

end FramePositions

/-! ## The payload and the frame of the current job -/

@[simp] theorem length_sentPayload (s : State) (n : Nat) : (sentPayload s n).length = n := by
  simp [sentPayload]

theorem getElem?_sentPayload {s : State} {n i : Nat} {b : Byte} (hi : i < n) (hb : payloadByte s i = some b) :
    (sentPayload s n)[i]? = some b := by
  simp [sentPayload, hi, hb]

/-- Every payload byte below a host job's length is defined: a typed job has its kind's length (R213 to R215). -/
theorem hostPayloadByte_defined {s : State} (h : TypedLen s.hjob.kind s.hjob.len) {i : Nat}
    (hi : i < s.hjob.len.toNat) : ∃ b, hostPayloadByte s i = some b := by
  obtain ⟨h8, h16, h32⟩ := h
  unfold hostPayloadByte
  cases hk : s.hjob.kind with
  | raw => exact ⟨_, rfl⟩
  | str => exact ⟨_, rfl⟩
  | i8 => rw [h8 hk] at hi; exact ⟨_, if_pos hi⟩
  | i16 => rw [h16 hk] at hi; exact ⟨_, if_pos hi⟩
  | i32 => rw [h32 hk] at hi; exact ⟨_, if_pos hi⟩

/-- The payload encodings give the bytes the engine reads one by one (R144 to R148, R221). -/
theorem hostJobPayload_eq {s : State} (h : TypedLen s.hjob.kind s.hjob.len) :
    hostJobPayload s = (List.range s.hjob.len.toNat).map fun i => (hostPayloadByte s i).getD 0x00#8 := by
  obtain ⟨h8, h16, h32⟩ := h
  unfold hostJobPayload hostPayloadByte
  cases hk : s.hjob.kind with
  | raw => rfl
  | str => rfl
  | i8 => rw [h8 hk]; rfl
  | i16 => rw [h16 hk]; rfl
  | i32 => rw [h32 hk]; rfl

theorem Inv.typedLen {s : State} (h : Inv s) (ho : s.lock = .txh) : TypedLen s.hjob.kind s.hjob.len := by
  obtain ⟨h8, h16, h32, -⟩ := h.shape (h.job.1 ho)
  exact ⟨h8, h16, h32⟩

theorem sentPayload_host {s : State} (h : Inv s) (ho : s.lock = .txh) :
    sentPayload s s.hjob.len.toNat = hostJobPayload s := by
  rw [hostJobPayload_eq (h.typedLen ho)]
  exact List.map_congr_left fun i hi => by simp only [payloadByte, ho, List.mem_range.1 hi, if_true]

theorem sentPayload_pong {s : State} (ho : s.lock = .txp) :
    sentPayload s s.pjob.len.toNat = rxbufBytes s s.pjob.len.toNat :=
  List.map_congr_left fun i hi => by simp only [payloadByte, ho, List.mem_range.1 hi, if_true, Option.getD_some]

/-- What the engine serves: the host job under the lock TXH, the PONG job under TXP. -/
theorem currentJob_cases {s : State} {j : Job} (h : currentJob s = some j) :
    (s.lock = .txh ∧ j = ⟨s.hjob.dest, s.hjob.orig, s.hjob.cmd, s.hjob.len⟩) ∨
      (s.lock = .txp ∧ j = ⟨s.pjob.dest, s.pjob.orig, cmdPong, s.pjob.len⟩) := by
  unfold currentJob at h
  cases ho : s.lock <;> rw [ho] at h <;> cases h
  · exact .inl ⟨rfl, rfl⟩
  · exact .inr ⟨rfl, rfl⟩

theorem Inv.payloadByte_defined {s : State} (h : Inv s) {j : Job} (hj : currentJob s = some j) {i : Nat}
    (hi : i < j.len.toNat) : ∃ b, payloadByte s i = some b := by
  rcases currentJob_cases hj with ⟨ho, rfl⟩ | ⟨ho, rfl⟩
  · obtain ⟨b, hb⟩ := hostPayloadByte_defined (h.typedLen ho) hi
    exact ⟨b, by simpa only [payloadByte, ho, hi, if_true] using hb⟩
  · exact ⟨_, by simp only [payloadByte, ho, hi, if_true]; rfl⟩

/-- The current frame is EncodeFrame of the current job and its payload bytes (R235). -/
theorem currentFrame_eq {s : State} (h : Inv s) {j : Job} (hj : currentJob s = some j) :
    currentFrame s = encodeFrame s.par s.cfg.sohN.toNat j.dest j.orig j.cmd (sentPayload s j.len.toNat) := by
  rcases currentJob_cases hj with ⟨ho, rfl⟩ | ⟨ho, rfl⟩
  · simp only [currentFrame, ho, hostJobFrame, sentPayload_host h ho]
  · simp only [currentFrame, ho, pongJobFrame, sentPayload_pong ho]

/-! ## One byte of the engine -/

/-- The byte the engine offers is the one at its position in its frame (R235). -/
theorem txByte_eq_frame {s : State} (h : Inv s) (hc : TransmitChecksum s) {j : Job} (hj : currentJob s = some j)
    (h0 : s.tx.phase ≠ .idle) (h1 : s.tx.phase ≠ .flush) :
    ∃ b, (currentFrame s)[framePos s j.len.toNat]? = some b ∧ txByte s = some b := by
  have hn : (sentPayload s j.len.toNat).length = j.len.toNat := length_sentPayload _ _
  have hx := hc j hj
  rw [currentFrame_eq h hj]
  cases hp : s.tx.phase <;> simp only [framePos, txByte, hp, hj] at hx ⊢
  case idle => exact absurd hp h0
  case flush => exact absurd hp h1
  case soh => exact ⟨_, encodeFrame_soh _ _ _ _ _ _ (h.index.1 hp), rfl⟩
  case dest => exact ⟨_, encodeFrame_dest _ _ _ _ _ _, rfl⟩
  case orig => exact ⟨_, encodeFrame_orig _ _ _ _ _ _, rfl⟩
  case cmd => exact ⟨_, encodeFrame_cmd _ _ _ _ _ _, rfl⟩
  case len => exact ⟨_, encodeFrame_len _ _ _ _ _ _, by simp⟩
  case stx => exact ⟨_, encodeFrame_stx _ _ _ _ _ _, rfl⟩
  case payload =>
    have hi := (engineIndex_payload_iff hp hj).1 h.index
    obtain ⟨b, hb⟩ := h.payloadByte_defined hj hi
    exact ⟨b, (encodeFrame_payload _ _ _ _ _ _ (hi.trans_eq hn.symm)).trans (getElem?_sentPayload hi hb), hb⟩
  case etx => exact ⟨_, encodeFrame_etx _ _ _ _ _ _ hn, rfl⟩
  case chk => exact ⟨_, encodeFrame_chk _ _ _ _ _ _ hn, by simp [hx]⟩
  case eot => exact ⟨_, encodeFrame_eot _ _ _ _ _ _ hn, rfl⟩

/-- The engine's byte step, when the transport takes the byte: it moves on by one position, and changes nothing but
its own state and the observations. -/
theorem txe_sends {s : State} (h : Inv s) {j : Job} (hj : currentJob s = some j) (h0 : s.tx.phase ≠ .idle)
    (h1 : s.tx.phase ≠ .flush) {b : Byte} (hb : txByte s = some b) (hr : s.inp.txReady = true) :
    ∃ x, takeTurn .txe s = .next (txPut b { s with tx := x }) ∧ x.phase ≠ .idle ∧
      framePos { s with tx := x } j.len.toNat = framePos s j.len.toNat + 1 := by
  have turn : takeTurn .txe s = txByteStep s := by
    simp only [takeTurn, txeTurn, if_neg h0, if_neg h1, hr, if_true]
  rw [turn]
  cases hp : s.tx.phase <;> simp only [txByte, txByteStep, withJob, txPayloadStep, hp, hj] at hb ⊢
  case idle => exact absurd hp h0
  case flush => exact absurd hp h1
  case soh =>
    cases hb
    refine ⟨_, rfl, by dsimp only; split <;> nofun, ?_⟩
    have hlt := h.index.1 hp
    by_cases he : s.tx.idx + 1#8 = s.cfg.sohN <;> simp [framePos, hp, he] <;> bv_omega
  case stx =>
    cases hb
    refine ⟨_, rfl, by dsimp only; split <;> nofun, ?_⟩
    by_cases hz : j.len = 0x00#8 <;> simp [framePos, hp, hz]
  case payload =>
    simp only [hb]
    refine ⟨_, rfl, by dsimp only; split <;> nofun, ?_⟩
    have hlt := (engineIndex_payload_iff hp hj).1 h.index
    by_cases he : s.tx.idx + 1#8 = j.len <;> simp [framePos, hp, he] <;> bv_omega
  all_goals
    cases hb
    exact ⟨_, rfl, nofun, by simp only [framePos, hp] <;> omega⟩

/-- Settles O43. -/
theorem nextByteSentIsTheNextByteOfTheFrame : Obligations.NextByteSentIsTheNextByteOfTheFrame := by
  intro s j hinv hc hj h0 h1
  have h := (machineInv_iff s).1 hinv
  obtain ⟨b, hf, hb⟩ := txByte_eq_frame h hc hj h0 h1
  refine ⟨b, hf, hb, fun hr => ?_⟩
  obtain ⟨x, ht, -, hpos⟩ := txe_sends h hj h0 h1 hb hr
  exact ⟨_, ht, rfl, rfl, hpos⟩

/-! ## Runs -/

theorem run_of_step {s u : State} (n : Nat) (h : step s = .next u) :
    Sys2Proof.core.run (n + 1) s = Sys2Proof.core.run n u := by
  have hc : Sys2Proof.core.step s = .next u := h
  simp only [Host.Core.run, hc]

/-- The first step of a run, and the rest of it. -/
theorem run_succ_cases {n : Nat} {s t : State} (h : Sys2Proof.core.run (n + 1) s = .next t) :
    ∃ u, step s = .next u ∧ Sys2Proof.core.run n u = .next t := by
  cases hs : step s with
  | next u => exact ⟨u, rfl, (run_of_step n hs).symm.trans h⟩
  | fault r => simp [Host.Core.run, Sys2Proof.core, hs] at h
  | refused r => simp [Host.Core.run, Sys2Proof.core, hs] at h

/-- A run of `m + n` steps goes on from where the first `m` have led. -/
theorem run_add {m : Nat} {s t : State} (n : Nat) (h : Sys2Proof.core.run m s = .next t) :
    Sys2Proof.core.run (m + n) s = Sys2Proof.core.run n t := by
  induction m generalizing s with
  | zero => cases h; rw [Nat.zero_add]
  | succ m ih =>
    obtain ⟨u, hs, hu⟩ := run_succ_cases h
    rw [Nat.add_right_comm, run_of_step _ hs]
    exact ih hu

/-- What the outputs show is no byte on the line. -/
@[simp] theorem sentBytes_observeOutputs (s t : State) : sentBytes (observeOutputs s t).obs = sentBytes t.obs := by
  unfold observeOutputs observeIf
  split <;> split <;> split <;> rfl

/-- `s` with the engine, the observations and the turns to come replaced: all that the engine's byte steps change. -/
def engineAt (s : State) (x : Tx) (o : List Obs) (k : List Turn) : State :=
  { s with tx := x, obs := o, sched := k }

/-- One turn of the engine in a sending phase: the byte at its position is on the line, and the position moves on. -/
theorem step_transmits {s : State} {rest : List Turn} (h : Inv s) (hc : TransmitChecksum s) {j : Job}
    (hj : currentJob s = some j) (h0 : s.tx.phase ≠ .idle) (h1 : s.tx.phase ≠ .flush) (hr : s.inp.txReady = true)
    (hs : s.sched = .txe :: rest) :
    ∃ b x o, (currentFrame s)[framePos s j.len.toNat]? = some b ∧ step s = .next (engineAt s x o rest) ∧
      x.phase ≠ .idle ∧ framePos (engineAt s x o rest) j.len.toNat = framePos s j.len.toNat + 1 ∧
      sentBytes o = sentBytes s.obs ++ [b] := by
  obtain ⟨b, hf, hb⟩ := txByte_eq_frame h hc hj h0 h1
  have h' : Inv { s with sched := rest } := { h with }
  obtain ⟨x, ht, hx, hpos⟩ := txe_sends h' hj h0 h1 hb hr
  have hstep := step_of_turn s _ .txe rest h.params hs ht
  have hsent := sentBytes_observeOutputs s (txPut b { s with sched := rest, tx := x })
  rw [observeOutputs_eq] at hstep
  exact ⟨b, x, _, hf, hstep, hx, hpos, hsent⟩

/-- From its present position on, the engine transmits what is left of its frame, one byte a turn, and comes to
T_FLUSH (R223 to R232). -/
theorem run_transmits {j : Job} {rest : List Turn} (k : Nat) {s : State} (h : Inv s) (hc : TransmitChecksum s)
    (hj : currentJob s = some j) (h0 : s.tx.phase ≠ .idle) (hr : s.inp.txReady = true)
    (hk : framePos s j.len.toNat + k = s.cfg.sohN.toNat + j.len.toNat + 8)
    (hs : s.sched = List.replicate k .txe ++ rest) :
    ∃ x o, Sys2Proof.core.run k s = .next (engineAt s x o rest) ∧ x.phase = .flush ∧
      sentBytes o = sentBytes s.obs ++ (currentFrame s).drop (framePos s j.len.toNat) := by
  induction k generalizing s with
  | zero =>
    have hlen : (currentFrame s).length = framePos s j.len.toNat := by simp [currentFrame_eq h hj, ← hk]
    have h1 : s.tx.phase = .flush := by
      by_contra h1
      obtain ⟨b, hb, -⟩ := txByte_eq_frame h hc hj h0 h1
      exact absurd (List.getElem?_eq_some_iff.1 hb).1 (by omega)
    refine ⟨s.tx, s.obs, ?_, h1, by simp [List.drop_eq_nil_of_le hlen.le]⟩
    cases s
    cases hs
    rfl
  | succ k ih =>
    have h1 : s.tx.phase ≠ .flush := fun h1 => by simp only [framePos, h1] at hk; omega
    obtain ⟨b, x, o, hf, hstep, hx, hpos, ho⟩ := step_transmits h hc hj h0 h1 hr hs
    obtain ⟨x', o', hrun, hx', ho'⟩ := ih (h.step hstep) (step_transmitChecksum h hc hstep) hj hx hr
      (by rw [hpos, ← Nat.add_right_comm]; exact hk) rfl
    refine ⟨x', o', (run_of_step k hstep).trans hrun, hx', ?_⟩
    obtain ⟨hlt, hget⟩ := List.getElem?_eq_some_iff.1 hf
    have hdrop : (currentFrame s).drop (framePos s j.len.toNat) =
        b :: (currentFrame s).drop (framePos s j.len.toNat + 1) := by rw [List.drop_eq_getElem_cons hlt, hget]
    calc sentBytes o' = sentBytes o ++ (currentFrame s).drop (framePos s j.len.toNat + 1) := by rw [ho', hpos]; rfl
      _ = _ := by rw [ho, hdrop, ← List.append_cons]

/-! ## A whole job -/

/-- The engine's next turn grants the lock to `owner` (R293, R294, and the order of R295). -/
structure Granted (s : State) (owner : LockOwner) : Prop where
  lock : s.lock = .none
  tx : s.tx.phase = .idle
  rx : s.rx.phase ≠ .waitLock
  job : owner = .txp ∧ s.pjob.valid = true ∨ owner = .txh ∧ s.hjob.valid = true ∧ s.pjob.valid = false

theorem Granted.turn {s : State} {owner : LockOwner} (h : Granted s owner) :
    takeTurn .txe s = .next (txStart owner s) := by
  obtain ⟨hl, ht, hr, ⟨rfl, hq⟩ | ⟨rfl, hh, hq⟩⟩ := h
  · simp [takeTurn, txeTurn, txGrant, grantTxp, hl, ht, hr, hq]
  · simp [takeTurn, txeTurn, txGrant, grantTxp, grantTxh, hl, ht, hr, hq, hh]

/-- A granted job's frame is put on the line, and the engine comes to T_FLUSH (R222 to R232). -/
theorem Granted.run {s : State} {owner : LockOwner} (hg : Granted s owner) (h : Inv s) {j : Job} {rest : List Turn}
    (hj : currentJob (txStart owner s) = some j) (hr : s.inp.txReady = true)
    (hs : s.sched = List.replicate (s.cfg.sohN.toNat + j.len.toNat + 9) .txe ++ rest) :
    ∃ x o, Sys2Proof.core.run (s.cfg.sohN.toNat + j.len.toNat + 9) s =
        .next (engineAt (txStart owner s) x o rest) ∧ x.phase = .flush ∧
      sentBytes o = sentBytes s.obs ++ currentFrame (txStart owner s) := by
  have hg' : Granted { s with sched := List.replicate (s.cfg.sohN.toNat + j.len.toNat + 8) .txe ++ rest } owner :=
    ⟨hg.lock, hg.tx, hg.rx, hg.job⟩
  have hstep := step_of_turn s _ .txe _ h.params hs hg'.turn
  have hsent := sentBytes_observeOutputs s
    (txStart owner { s with sched := List.replicate (s.cfg.sohN.toNat + j.len.toNat + 8) .txe ++ rest })
  rw [observeOutputs_eq] at hstep
  obtain ⟨x, o, hrun, hx, ho⟩ := run_transmits (rest := rest) _ (h.step hstep) (fun _ _ => rfl) hj nofun hr
    (Nat.zero_add _) rfl
  exact ⟨x, o, (run_of_step _ hstep).trans hrun, hx, by rw [ho, hsent]; rfl⟩

/-- The completed flush of the engine's turn (R233). -/
theorem step_flush {s : State} {x : Tx} {o : List Obs} {rest : List Turn} (hd : s.par.Distinct) (hx : x.phase = .flush)
    (hf : s.inp.flushDone = true) :
    ∃ o', step (engineAt s x o (.txe :: rest)) =
        .next { txFlushDone (engineAt s x o rest) with obs := o' } ∧ sentBytes o' = sentBytes o := by
  have ht : takeTurn .txe (engineAt s x o rest) = .next (txFlushDone (engineAt s x o rest)) := by
    simp [takeTurn, txeTurn, engineAt, hx, hf]
  have hstep := step_of_turn (engineAt s x o (.txe :: rest)) _ .txe rest hd rfl ht
  have hsent := sentBytes_observeOutputs (engineAt s x o (.txe :: rest)) (txFlushDone (engineAt s x o rest))
  rw [observeOutputs_eq] at hstep
  refine ⟨_, hstep, hsent.trans ?_⟩
  unfold txFlushDone
  split <;> rfl

/-- From the grant to the completed flush a job's frame is transmitted, and nothing else (R222 to R233). -/
theorem Granted.run_job {s : State} {owner : LockOwner} (hg : Granted s owner) (h : Inv s) {j : Job} {rest : List Turn}
    (hj : currentJob (txStart owner s) = some j) (hr : s.inp.txReady = true) (hf : s.inp.flushDone = true)
    (hs : s.sched = List.replicate (s.cfg.sohN.toNat + j.len.toNat + 10) .txe ++ rest) :
    ∃ x o o', Sys2Proof.core.run (s.cfg.sohN.toNat + j.len.toNat + 10) s =
        .next { txFlushDone (engineAt (txStart owner s) x o' rest) with obs := o } ∧
      sentBytes o = sentBytes s.obs ++ currentFrame (txStart owner s) := by
  obtain ⟨x, o, hrun, hx, ho⟩ := hg.run h (rest := .txe :: rest) hj hr
    (by rw [hs, ← List.singleton_append, ← List.append_assoc, ← List.replicate_succ'])
  obtain ⟨o', hstep, ho'⟩ := step_flush (s := txStart owner s) (x := x) (o := o) (rest := rest) h.params hx hf
  exact ⟨x, o', o, (run_add 1 hrun).trans (run_of_step 0 hstep), ho'.trans ho⟩

/-- An accepted host send puts exactly its frame on the line and ends with RESULT = OK (R235, R237). -/
theorem run_host_job {s : State} {rest : List Turn} (h : Inv s) (hv : s.hjob.valid = true) (hq : s.pjob.valid = false)
    (hl : s.lock = .none) (hp : s.rx.phase ≠ .waitLock) (hr : s.inp.txReady = true) (hf : s.inp.flushDone = true)
    (hs : s.sched = List.replicate (s.cfg.sohN.toNat + s.hjob.len.toNat + 10) .txe ++ rest) :
    ∃ (x : Tx) (o : List Obs), Sys2Proof.core.run (s.cfg.sohN.toNat + s.hjob.len.toNat + 10) s = .next { s with
        tx := { x with phase := .idle }, obs := o, de := false, lock := .none
        hjob := { s.hjob with valid := false }, result := resOk, doneFlag := true, sched := rest } ∧
      sentBytes o = sentBytes s.obs ++ hostJobFrame s := by
  have hg : Granted s .txh := ⟨hl, (h.engine_idle (by simp [EngineHolds, hl])).1, hp, .inr ⟨rfl, hv, hq⟩⟩
  obtain ⟨x, o, o', hrun, ho⟩ := hg.run_job h rfl hr hf hs
  exact ⟨x, o, hrun, ho⟩

/-- A queued reply puts exactly its frame on the line, and the PING is delivered after it (R176, R233). -/
theorem run_pong_job {s : State} {rest : List Turn} (h : Inv s) (hv : s.pjob.valid = true) (hl : s.lock = .none)
    (hr : s.inp.txReady = true) (hf : s.inp.flushDone = true)
    (hs : s.sched = List.replicate (s.cfg.sohN.toNat + s.pjob.len.toNat + 10) .txe ++ rest) :
    ∃ (x : Tx) (o : List Obs), Sys2Proof.core.run (s.cfg.sohN.toNat + s.pjob.len.toNat + 10) s = .next { s with
        tx := { x with phase := .idle }, obs := o, de := false, lock := .none
        pjob := { s.pjob with valid := false }, rx := { s.rx with phase := .deliver }, sched := rest } ∧
      sentBytes o = sentBytes s.obs ++ pongJobFrame s := by
  have hp : s.rx.phase = .pongWait := h.pong.1 hv
  have hg : Granted s .txp := ⟨hl, (h.engine_idle (by simp [EngineHolds, hl])).1, by simp [hp], .inl ⟨rfl, hv⟩⟩
  obtain ⟨x, o, o', hrun, ho⟩ := hg.run_job h rfl hr hf hs
  exact ⟨x, o, hrun, ho⟩

/-- Settles O46: the queued reply answers the PING the parser holds. -/
theorem pongReplyIsSentBeforeTheDelivery : Obligations.PongReplyIsSentBeforeTheDelivery := by
  intro s rest hinv hv hl hr hf hs
  have h := (machineInv_iff s).1 hinv
  obtain ⟨hdest, horig, hlen, -⟩ := h.answer hv
  rw [← hlen] at hs ⊢
  obtain ⟨x, o, hrun, ho⟩ := run_pong_job h hv hl hr hf hs
  refine ⟨_, hrun, ho.trans ?_, rfl, rfl, rfl, rfl, rfl⟩
  rw [pongJobFrame, hdest, horig]
  rfl

end Sys2Proof.Machine
end

section
/-! PROOFS of the family 40_frame_codec.md, third part: what the receiver makes of a frame on its input, with noise
before it (O37) or none (O36), or with a wrong trailer (O38). -/

namespace Sys2Proof.Machine
open Sys2Proof.Safety

/-! ## One turn of the receiver -/

/-- `s` with the parser, the lock, the buffers, the offered bytes and the turns to come replaced: all that the
receiver's turns change until they hand a frame over. -/
def rxAt (s : State) (r : Rx) (l : LockOwner) (m : Memory) (q : List Byte) (k : List Turn) : State :=
  { s with rx := r, lock := l, buf := m, rxIn := q, sched := k }

theorem beq_deliver_of_takesBytes {p : RxPhase} (h : p.takesBytes = true) : (p == .deliver) = false :=
  Bool.eq_false_iff.2 fun hd => by rw [eq_of_beq hd] at h; cases h

/-- A turn of the receiver that neither begins nor ends a delivery shows nothing. -/
theorem step_rxf_quiet {s : State} {r r' : Rx} {l l' : LockOwner} {m m' : Memory} {q q' : List Byte} {k : List Turn}
    (hd : s.par.Distinct) (ht : takeTurn .rxf (rxAt s r l m q k) = .next (rxAt s r' l' m' q' k))
    (hp : (r.phase == .deliver) = false) (hp' : (r'.phase == .deliver) = false) :
    step (rxAt s r l m q (.rxf :: k)) = .next (rxAt s r' l' m' q' k) := by
  have hi : irqLevel (rxAt s r l m q (.rxf :: k)) = irqLevel (rxAt s r' l' m' q' k) := by
    simp only [irqLevel, framePend, rxAt, hp, hp', ctrlIeFrame, ctrlIeDone]
  exact (step_of_turn (rxAt s r l m q (.rxf :: k)) _ .rxf k hd rfl ht).trans
    (congrArg Host.Outcome.next (observeOutputs_of_same hi rfl rfl))

/-- A turn of the receiver that takes the byte `b` and does not hand a frame over. -/
theorem step_rxf_byte {s : State} {r r' : Rx} {l l' : LockOwner} {m m' : Memory} {b : Byte} {q : List Byte}
    {k : List Turn} (hd : s.par.Distinct) (hr : r.phase.takesBytes = true)
    (hb : rxByteStep b (rxAt s r l m q k) = .next (rxAt s r' l' m' q k)) (hp : (r'.phase == .deliver) = false) :
    step (rxAt s r l m (b :: q) (.rxf :: k)) = .next (rxAt s r' l' m' q k) :=
  step_rxf_quiet hd ((if_pos hr).trans hb) (beq_deliver_of_takesBytes hr) hp

/-! ## Seeking -/

/-- No byte of the list completes a header, the window holding `n` entries of `w` when the list begins (R165). -/
def NoHeader (k : Config.Params) : Window → BitVec 3 → List Byte → Prop
  | _, _, [] => True
  | w, n, b :: bs => headerMatch k w n b = false ∧ NoHeader k (shiftWindow w b) (countUp n) bs

/-- The parser after the bytes have been shifted in (R164). -/
def shiftAll (r : Rx) (bs : List Byte) : Rx :=
  { r with win := bs.foldl shiftWindow r.win, wcnt := bs.foldl (fun n _ => countUp n) r.wcnt }

/-- A byte taken while seeking, the endpoint running (R164, R166). -/
theorem rxSeek_running (s : State) (h : s.life = .running) (b : Byte) :
    rxSeek b s = if headerMatch s.par s.rx.win s.rx.wcnt b = true then rxHeader s else rxShift b s :=
  if_neg (not_not_intro h)

/-- Bytes that complete no header are shifted in one after the other. -/
theorem run_shift {s : State} (hd : s.par.Distinct) (hl : s.life = .running) {l : LockOwner} {m : Memory}
    {q : List Byte} {k : List Turn} (bs : List Byte) {r : Rx} (hp : r.phase = .seek)
    (hn : NoHeader s.par r.win r.wcnt bs) :
    Sys2Proof.core.run bs.length (rxAt s r l m (bs ++ q) (List.replicate bs.length .rxf ++ k)) =
      .next (rxAt s (shiftAll r bs) l m q k) := by
  induction bs generalizing r with
  | nil => rfl
  | cons b bs ih =>
    obtain ⟨hb, hn⟩ := hn
    have hbyte : rxByteStep b (rxAt s r l m (bs ++ q) (List.replicate bs.length .rxf ++ k)) =
        .next (rxAt s (shiftAll r [b]) l m (bs ++ q) (List.replicate bs.length .rxf ++ k)) := by
      have hseek : (rxAt s r l m (bs ++ q) (List.replicate bs.length .rxf ++ k)).rx.phase = .seek := hp
      simp only [rxByteStep, hseek]
      exact congrArg Host.Outcome.next
        ((rxSeek_running (rxAt s r l m _ _) hl b).trans (if_neg (Bool.eq_false_iff.1 hb)))
    have hp' : (shiftAll r [b]).phase = .seek := hp
    exact (run_of_step _ (step_rxf_byte hd (by rw [hp]; rfl) hbyte (by rw [hp']; rfl))).trans (ih hp' hn)

/-- The entries of the window, oldest first. -/
def Window.toList (w : Window) : List Byte := [w.w0, w.w1, w.w2, w.w3, w.w4]

/-- In the bytes `bs` a header is completed at position `i + 5` (R165). -/
def HeaderAt (k : Config.Params) (bs : List Byte) (i : Nat) : Prop :=
  bs[i]? = some k.soh ∧ bs[i + 5]? = some k.stx ∧ bs[i + 1]? ≠ bs[i + 2]?

theorem countUp_min (n : Nat) : countUp (BitVec.ofNat 3 (min n 5)) = BitVec.ofNat 3 (min (n + 1) 5) := by
  simp only [countUp, BitVec.toNat_ofNat]
  congr 1
  omega

/-- Where no position completes a header none is found, `cs` being the bytes taken since the window was empty. -/
theorem noHeader_of_forall {k : Config.Params} {ws : List Byte} (bs : List Byte) {cs : List Byte} {w : Window}
    (hw : w.toList <:+ ws ++ cs) (h : ∀ i, ¬ HeaderAt k (cs ++ bs) i) :
    NoHeader k w (BitVec.ofNat 3 (min cs.length 5)) bs := by
  induction bs generalizing cs w with
  | nil => trivial
  | cons b bs ih =>
    refine ⟨Bool.eq_false_iff.2 fun hm => ?_, ?_⟩
    · simp only [headerMatch, Bool.and_eq_true, beq_iff_eq, bne_iff_ne] at hm
      obtain ⟨⟨⟨h5, h0⟩, hb⟩, h12⟩ := hm
      have hlen : 5 ≤ cs.length := by
        have := congrArg BitVec.toNat h5
        simp only [BitVec.toNat_ofNat] at this
        omega
      obtain ⟨pre, rfl⟩ := List.suffix_of_suffix_length_le hw (List.suffix_append ws cs) hlen
      refine h pre.length ⟨?_, ?_, ?_⟩
      · simp [Window.toList, h0]
      · simp [Window.toList, hb]
      · simp [Window.toList, h12]
    · have hs : (shiftWindow w b).toList <:+ ws ++ (cs ++ [b]) := by
        obtain ⟨pre, hpre⟩ := hw
        exact ⟨pre ++ [w.w0], by rw [← List.append_assoc, ← hpre]; simp [Window.toList, shiftWindow]⟩
      rw [countUp_min]
      simpa using ih hs (by simpa using h)

/-- The bytes of a frame before its STX: `n` start sentinels and the header. -/
def frameFront (k : Config.Params) (n : Nat) (d o c l : Byte) : List Byte := List.replicate n k.soh ++ [d, o, c, l]

/-- Under the condition of R150 a frame's front completes no header of its own. -/
theorem not_headerAt_frameFront {k : Config.Params} {n : Nat} {d o c l : Byte}
    (hc : ¬ (2 ≤ n ∧ l = k.stx ∧ d ≠ k.soh)) (i : Nat) : ¬ HeaderAt k (frameFront k n d o c l) i := by
  rintro ⟨-, h5, h12⟩
  have hlt : i + 5 < n + 4 := by simpa [frameFront] using (List.getElem?_eq_some_iff.1 h5).1
  have soh : ∀ m < n, (frameFront k n d o c l)[m]? = some k.soh := fun m hm => by
    simp [frameFront, List.getElem?_append_left, hm]
  have header : ∀ m, (frameFront k n d o c l)[n + m]? = [d, o, c, l][m]? := fun m => by
    simp [frameFront, List.getElem?_append_right]
  rw [soh (i + 1) (by omega)] at h12
  by_cases h2 : i + 2 < n
  · exact h12 (soh (i + 2) h2).symm
  · obtain rfl : n = i + 2 := by omega
    have hd : d ≠ k.soh := fun hd => h12 (by rw [← hd]; exact (header 0).symm)
    have hl : some l = some k.stx := (header 3).symm.trans h5
    exact hc ⟨by omega, Option.some.inj hl, hd⟩

/-- Noise without a start sentinel before the front completes no header either (R183). -/
theorem not_headerAt_noise {k : Config.Params} {g bs : List Byte} (hg : ∀ x, x ∈ g → x ≠ k.soh)
    (h : ∀ i, ¬ HeaderAt k bs i) (i : Nat) : ¬ HeaderAt k (g ++ bs) i := by
  intro hh
  by_cases hi : i < g.length
  · have h0 := hh.1
    rw [List.getElem?_append_left hi] at h0
    exact hg _ (List.mem_of_getElem? h0) rfl
  · obtain ⟨j, rfl⟩ := Nat.exists_eq_add_of_le (Nat.le_of_not_lt hi)
    refine h j ?_
    simpa [HeaderAt, Nat.add_assoc, List.getElem?_append_right] using hh

/-- After a frame's front the window holds a start sentinel and the header. -/
theorem foldl_shiftWindow_frameFront (k : Config.Params) {n : Nat} (hn : 1 ≤ n) (d o c l : Byte) (w : Window) :
    (frameFront k n d o c l).foldl shiftWindow w = ⟨k.soh, d, o, c, l⟩ := by
  obtain ⟨n, rfl⟩ := Nat.exists_eq_add_of_le' hn
  simp only [frameFront, List.replicate_succ', List.append_assoc, List.foldl_append]
  rfl

theorem foldl_countUp (bs : List Byte) (n : Nat) :
    bs.foldl (fun n _ => countUp n) (BitVec.ofNat 3 (min n 5)) = BitVec.ofNat 3 (min (n + bs.length) 5) := by
  induction bs generalizing n with
  | nil => rfl
  | cons b bs ih => rw [List.foldl_cons, countUp_min, ih, List.length_cons, Nat.add_right_comm, Nat.add_assoc]

/-- What the condition of R150 asks of a frame with `l` in its LEN field. -/
structure FrameFits (k : Config.Params) (n : Nat) (d o l : Byte) : Prop where
  sentinels : 1 ≤ n
  source : d ≠ o
  length : ¬ (2 ≤ n ∧ l = k.stx ∧ d ≠ k.soh)

/-- The parser with the header window of a frame, before STX. -/
structure HeaderHeld (k : Config.Params) (d o c l : Byte) (r : Rx) : Prop where
  phase : r.phase = .seek
  win : r.win = ⟨k.soh, d, o, c, l⟩
  wcnt : r.wcnt = 5#3

/-- Noise and the front of a frame leave the frame's header in the window (R164, R183). -/
theorem run_front {s : State} (hd : s.par.Distinct) (hl : s.life = .running) {lk : LockOwner} {m : Memory}
    {q : List Byte} {t : List Turn} {r : Rx} (hp : r.phase = .seek) (hw : r.wcnt = 0#3) {g : List Byte}
    (hg : ∀ x, x ∈ g → x ≠ s.par.soh) {n : Nat} {d o c l : Byte} (hf : FrameFits s.par n d o l) :
    ∃ r', HeaderHeld s.par d o c l r' ∧
      Sys2Proof.core.run (g.length + n + 4)
        (rxAt s r lk m (g ++ frameFront s.par n d o c l ++ q) (List.replicate (g.length + n + 4) .rxf ++ t)) =
        .next (rxAt s r' lk m q t) := by
  have hlen : (g ++ frameFront s.par n d o c l).length = g.length + n + 4 := by
    simp [frameFront, Nat.add_assoc]
  have hno : NoHeader s.par r.win r.wcnt (g ++ frameFront s.par n d o c l) := by
    rw [hw]
    exact noHeader_of_forall (ws := r.win.toList) (cs := []) _ (by simp)
      (not_headerAt_noise (g := g) hg (not_headerAt_frameFront hf.length))
  refine ⟨shiftAll r (g ++ frameFront s.par n d o c l), ⟨hp, ?_, ?_⟩, ?_⟩
  · rw [shiftAll, List.foldl_append, foldl_shiftWindow_frameFront _ hf.sentinels]
  · have hmin : min (0 + (g ++ frameFront s.par n d o c l).length) 5 = 5 := by
      have := hf.sentinels
      omega
    rw [shiftAll, hw]
    exact (foldl_countUp _ 0).trans (by rw [hmin])
  · rw [← hlen]
    exact run_shift hd hl _ hp hno

/-! ## The frame behind its front -/

/-- The parser inside a frame, `cur` payload bytes collected and `acc` their and the header's sum (R168, R169). -/
def collecting (r : Rx) (cur acc : Byte) : Rx :=
  { r with acc := acc, cursor := cur, idle := 0#32, phase := if cur = r.hLen then .chkEtx else .collect }

/-- The parser when the header in its window has been latched (R166). -/
def headerLatched (r : Rx) : Rx :=
  { r with hDest := r.win.w1, hSrc := r.win.w2, hCmd := r.win.w3, hLen := r.win.w4, wcnt := 0#3, phase := .waitLock }

/-- The parser waits for the lock with a frame's header latched. -/
structure HeaderWaits (d o c l : Byte) (r : Rx) : Prop where
  phase : r.phase = .waitLock
  dest : r.hDest = d
  src : r.hSrc = o
  cmd : r.hCmd = c
  len : r.hLen = l

theorem HeaderHeld.latched {k : Config.Params} {d o c l : Byte} {r : Rx} (h : HeaderHeld k d o c l r) :
    HeaderWaits d o c l (headerLatched r) := by
  constructor <;> simp [headerLatched, h.win]

/-- STX completes the header in the window (R166). -/
theorem step_stx {s : State} (hd : s.par.Distinct) (hl : s.life = .running) {lk : LockOwner} {m : Memory}
    {q : List Byte} {t : List Turn} {r : Rx} {d o c l : Byte} (hr : HeaderHeld s.par d o c l r) (hdo : d ≠ o) :
    step (rxAt s r lk m (s.par.stx :: q) (.rxf :: t)) = .next (rxAt s (headerLatched r) lk m q t) := by
  obtain ⟨hp, hw, hn⟩ := hr
  refine step_rxf_byte hd (by rw [hp]; rfl) ?_ rfl
  have hm : headerMatch s.par r.win r.wcnt s.par.stx = true := by simp [headerMatch, hw, hn, hdo]
  simp only [rxByteStep, show (rxAt s r lk m q t).rx.phase = .seek from hp]
  exact congrArg Host.Outcome.next ((rxSeek_running (rxAt s r lk m q t) hl _).trans (if_pos hm))

/-- The grant takes the lock for a frame the filter accepts (R167, R168). -/
theorem step_grant {s : State} (hd : s.par.Distinct) {m : Memory} {q : List Byte} {t : List Turn} {r : Rx}
    {d o c l : Byte} (hr : HeaderWaits d o c l r) (ha : d = s.cfg.station ∨ d = 0x00#8) :
    step (rxAt s r .none m q (.rxf :: t)) = .next (rxAt s (collecting r 0x00#8 (d + o + c + l)) .rx m q t) := by
  obtain ⟨hp, rfl, rfl, rfl, rfl⟩ := hr
  have hacc : acceptDest (rxAt s r .none m q t) r.hDest = true := by
    simpa [acceptDest, rxAt, bcastAddr] using ha
  have hg : rxGrant (rxAt s r .none m q t) =
      rxAt s (collecting r 0x00#8 (r.hDest + r.hSrc + r.hCmd + r.hLen)) .rx m q t :=
    (if_pos hacc).trans (congrArg (fun p => rxAt s { collecting r _ _ with phase := p } _ _ _ _)
      (if_congr eq_comm rfl rfl))
  have ht : takeTurn .rxf (rxAt s r .none m q t) = .next (rxGrant (rxAt s r .none m q t)) := by
    simp [takeTurn, rxfTurn, rxAt, hp, RxPhase.takesBytes, rxWaitLock, grantRx]
  exact step_rxf_quiet hd (ht.trans (congrArg _ hg)) (by rw [hp]; rfl) (by simp only [collecting]; split <;> rfl)

/-- The buffers after the bytes have been stored in RXBUF from index `i` on (R169). -/
def storeAll : Memory → Nat → List Byte → Memory
  | m, _, [] => m
  | m, i, b :: p => storeAll (Memory.store m (rxbufBase + i) b) (i + 1) p

theorem lookup_storeAll_before {p : List Byte} {m : Memory} {i j : Nat} (h : j < i) :
    Memory.lookup (storeAll m i p) (rxbufBase + j) = Memory.lookup m (rxbufBase + j) := by
  induction p generalizing m i with
  | nil => rfl
  | cons b p ih =>
    rw [storeAll, ih (Nat.lt_succ_of_lt h)]
    exact Memory.lookup_store_other _ _ _ _ (by omega)

theorem lookup_storeAll {p : List Byte} {m : Memory} {i j : Nat} (h : j < p.length) :
    Memory.lookup (storeAll m i p) (rxbufBase + (i + j)) = some p[j] := by
  induction p generalizing m i j with
  | nil => cases h
  | cons b p ih =>
    cases j with
    | zero => exact (lookup_storeAll_before (Nat.lt_succ_self i)).trans (Memory.lookup_store_same _ _ _)
    | succ j =>
      rw [storeAll, show i + (j + 1) = i + 1 + j by omega]
      exact ih (Nat.lt_of_succ_lt_succ h)

/-- RXBUF reads the bytes stored. -/
theorem rxbufBytes_of_storeAll {s : State} {m : Memory} {p : List Byte} (h : s.buf = storeAll m 0 p) :
    rxbufBytes s p.length = p := by
  refine List.ext_getElem (by simp [rxbufBytes]) fun j _ hj => ?_
  have hx := lookup_storeAll (m := m) (i := 0) hj
  rw [Nat.zero_add] at hx
  simp [rxbufBytes, rxbuf, readBuf, h, hx]

/-- The payload is collected byte by byte (R169). -/
theorem run_collect {s : State} (hd : s.par.Distinct) {lk : LockOwner} {q : List Byte} {t : List Turn} {r : Rx}
    (p : List Byte) {m : Memory} {cur acc : Byte} (hc : cur.toNat + p.length = r.hLen.toNat) :
    Sys2Proof.core.run p.length (rxAt s (collecting r cur acc) lk m (p ++ q) (List.replicate p.length .rxf ++ t)) =
      .next (rxAt s (collecting r r.hLen (acc + sumBytes p)) lk (storeAll m cur.toNat p) q t) := by
  induction p generalizing m cur acc with
  | nil =>
    obtain rfl : cur = r.hLen := BitVec.eq_of_toNat_eq hc
    simp [sumBytes, storeAll, Host.Core.run]
  | cons b p ih =>
    rw [List.length_cons] at hc ⊢
    have hne : cur ≠ r.hLen := fun he => by rw [he] at hc; omega
    have hnx : (cur + 1#8).toNat = cur.toNat + 1 := by bv_omega
    have hff : cur ≠ 0xFF#8 := by bv_omega
    have hbyte : rxByteStep b (rxAt s (collecting r cur acc) lk m (p ++ q) (List.replicate p.length .rxf ++ t)) =
        .next (rxAt s (collecting r (cur + 1#8) (acc + b)) lk (Memory.store m (rxbufBase + cur.toNat) b) (p ++ q)
          (List.replicate p.length .rxf ++ t)) := by
      simp only [rxByteStep, rxCollect, rxAt, collecting, hne, hff, if_false]
      rfl
    have hstep := step_rxf_byte hd (by simp only [collecting, if_neg hne]; rfl) hbyte
      (by simp only [collecting]; split <;> rfl)
    have := ih (m := Memory.store m (rxbufBase + cur.toNat) b) (cur := cur + 1#8) (acc := acc + b) (by omega)
    refine (run_of_step _ hstep).trans (this.trans ?_)
    rw [hnx, BitVec.add_assoc]
    rfl

/-- ETX ends the payload (R170). -/
theorem step_etx {s : State} (hd : s.par.Distinct) {lk : LockOwner} {m : Memory} {q : List Byte} {t : List Turn}
    {r : Rx} (hp : r.phase = .chkEtx) :
    step (rxAt s r lk m (s.par.etx :: q) (.rxf :: t)) =
      .next (rxAt s { r with idle := 0#32, phase := .readChk } lk m q t) := by
  refine step_rxf_byte hd (by rw [hp]; rfl) ?_ rfl
  simp only [rxByteStep, show (rxAt s r lk m q t).rx.phase = .chkEtx from hp]
  exact congrArg Host.Outcome.next (if_pos rfl)

/-- The checksum byte is kept (R171). -/
theorem step_chk {s : State} (hd : s.par.Distinct) {lk : LockOwner} {m : Memory} {x : Byte} {q : List Byte}
    {t : List Turn} {r : Rx} (hp : r.phase = .readChk) :
    step (rxAt s r lk m (x :: q) (.rxf :: t)) =
      .next (rxAt s { r with trl := x, idle := 0#32, phase := .chkEot } lk m q t) := by
  refine step_rxf_byte hd (by rw [hp]; rfl) ?_ rfl
  simp only [rxByteStep, show (rxAt s r lk m q t).rx.phase = .readChk from hp]
  rfl

/-! ## A frame up to its last byte -/

/-- The endpoint runs, its parser seeks with no valid window entry, and the lock is free. -/
structure IdleReceiver (s : State) : Prop where
  params : s.par.Distinct
  life : s.life = .running
  phase : s.rx.phase = .seek
  wcnt : s.rx.wcnt = 0#3
  lock : s.lock = .none

/-- The parser when all of a frame but its last byte has been taken: the header, the sum of what it received, and the
checksum byte `x`. -/
structure AwaitsEot (d o c : Byte) (p : List Byte) (x : Byte) (r : Rx) : Prop where
  phase : r.phase = .chkEot
  dest : r.hDest = d
  src : r.hSrc = o
  cmd : r.hCmd = c
  len : r.hLen = BitVec.ofNat 8 p.length
  acc : r.acc = checksum d o c (BitVec.ofNat 8 p.length) p
  trl : r.trl = x

/-- What is offered: noise, a frame whose last two bytes are `x` and `y`, and more. -/
def offered (k : Config.Params) (g : List Byte) (n : Nat) (d o c : Byte) (p : List Byte) (x y : Byte)
    (q : List Byte) : List Byte :=
  g ++ frameFront k n d o c (BitVec.ofNat 8 p.length) ++ k.stx :: (p ++ k.etx :: x :: y :: q)

/-- The turns of a frame: those of its front, two for STX and the grant, the payload's, two for ETX and the checksum. -/
theorem replicate_split {α : Type} (x : α) (a b : Nat) (t : List α) :
    List.replicate (a + b + 4) x ++ t =
      List.replicate a x ++ x :: x :: (List.replicate b x ++ x :: x :: t) := by
  rw [show a + b + 4 = a + (2 + (b + 2)) by omega, List.replicate_add, List.replicate_add, List.replicate_add]
  simp only [List.append_assoc]
  rfl

/-- A frame that fits, after noise without a start sentinel, is received up to its last byte with its payload in
RXBUF (R164 to R171). -/
theorem run_to_last_byte {s : State} (hs : IdleReceiver s) {g : List Byte} (hg : ∀ x, x ∈ g → x ≠ s.par.soh)
    {n : Nat} {d o c x y : Byte} {p q : List Byte} {t : List Turn} (ha : d = s.cfg.station ∨ d = 0x00#8)
    (hp : p.length ≤ 255) (hf : FrameFits s.par n d o (BitVec.ofNat 8 p.length))
    (hq : s.rxIn = offered s.par g n d o c p x y q)
    (ht : s.sched = List.replicate (g.length + n + p.length + 8) .rxf ++ t) :
    ∃ r, AwaitsEot d o c p x r ∧ Sys2Proof.core.run (g.length + n + p.length + 8) s =
      .next (rxAt s r .rx (storeAll s.buf 0 p) (y :: q) t) := by
  obtain ⟨r, hr, hfront⟩ := run_front hs.params hs.life hs.phase hs.wcnt hg hf (lk := .none) (m := s.buf)
    (q := s.par.stx :: (p ++ s.par.etx :: x :: y :: q)) (c := c)
    (t := .rxf :: .rxf :: (List.replicate p.length .rxf ++ .rxf :: .rxf :: t))
  have hw := hr.latched
  have hstx := step_stx hs.params hs.life (lk := .none) (m := s.buf)
    (q := p ++ s.par.etx :: x :: y :: q) (t := .rxf :: (List.replicate p.length .rxf ++ .rxf :: .rxf :: t)) hr hf.source
  have hgrant := step_grant hs.params (m := s.buf) (q := p ++ s.par.etx :: x :: y :: q)
    (t := List.replicate p.length .rxf ++ .rxf :: .rxf :: t) hw ha
  have hcollect := run_collect hs.params (lk := .rx) (q := s.par.etx :: x :: y :: q) (t := .rxf :: .rxf :: t)
    (r := headerLatched r) p (m := s.buf) (cur := 0x00#8) (acc := d + o + c + BitVec.ofNat 8 p.length)
    (by rw [hw.len]; simp; omega)
  generalize headerLatched r = r at hw hstx hgrant hcollect
  have hetx := step_etx hs.params (lk := .rx) (m := storeAll s.buf 0 p) (q := x :: y :: q) (t := .rxf :: t)
    (r := collecting r r.hLen (d + o + c + BitVec.ofNat 8 p.length + sumBytes p)) (if_pos rfl)
  have hchk := step_chk hs.params (lk := .rx) (m := storeAll s.buf 0 p) (x := x) (q := y :: q) (t := t)
    (r := { collecting r r.hLen (d + o + c + BitVec.ofNat 8 p.length + sumBytes p) with
      idle := 0#32, phase := .readChk }) rfl
  have hstart : s = rxAt s s.rx .none s.buf (offered s.par g n d o c p x y q)
      (List.replicate (g.length + n + 4) .rxf ++
        .rxf :: .rxf :: (List.replicate p.length .rxf ++ .rxf :: .rxf :: t)) := by
    rw [← replicate_split, show g.length + n + 4 + p.length + 4 = g.length + n + p.length + 8 by omega, ← ht, ← hq,
      ← hs.lock]
    rfl
  have hrun := calc Sys2Proof.core.run (g.length + n + 4 + (p.length + 2 + 1 + 1)) s
      = Sys2Proof.core.run (p.length + 2 + 1 + 1) _ := by rw [hstart]; exact run_add _ hfront
    _ = Sys2Proof.core.run (p.length + 2 + 1) _ := run_of_step _ hstx
    _ = Sys2Proof.core.run (p.length + 2) _ := run_of_step _ hgrant
    _ = Sys2Proof.core.run 2 _ := run_add 2 hcollect
    _ = Sys2Proof.core.run 1 _ := run_of_step 1 hetx
    _ = Sys2Proof.core.run 0 _ := run_of_step 0 hchk
  rw [show g.length + n + p.length + 8 = g.length + n + 4 + (p.length + 2 + 1 + 1) by omega]
  refine ⟨_, ?_, hrun⟩
  exact ⟨rfl, hw.dest, hw.src, hw.cmd, hw.len, rfl, rfl⟩

/-! ## The last byte -/

/-- The frame is valid: it is answered first if it is a PING, and else delivered, the lock being released
(R172, R173). -/
theorem takeTurn_valid_eot {s : State} {m : Memory} {q : List Byte} {k : List Turn} {r : Rx} {d o c : Byte}
    {p : List Byte} (hr : AwaitsEot d o c p (checksum d o c (BitVec.ofNat 8 p.length) p) r) :
    takeTurn .rxf (rxAt s r .rx m (s.par.eot :: q) k) =
      .next (if c = cmdPing then queuePong (rxAt s { r with idle := 0#32 } .none m q k)
        else deliverFrame (rxAt s { r with idle := 0#32 } .none m q k)) := by
  have hv : trailerValid s.par.eot (rxAt s r .rx m q k) = true := by simp [trailerValid, rxAt, hr.trl, hr.acc]
  have hbyte : rxByteStep s.par.eot (rxAt s r .rx m q k) = rxCheckEot s.par.eot (rxAt s r .rx m q k) := by
    simp only [rxByteStep, show (rxAt s r .rx m q k).rx.phase = .chkEot from hr.phase]
  calc takeTurn .rxf (rxAt s r .rx m (s.par.eot :: q) k) = rxByteStep s.par.eot (rxAt s r .rx m q k) :=
        if_pos (show r.phase.takesBytes = true by rw [hr.phase]; rfl)
    _ = dispatch (rxAt s { r with idle := 0#32 } .none m q k) := hbyte.trans (if_pos hv)
    _ = _ := by rw [dispatch_eq, ← hr.cmd]; rfl

/-- The trailer is wrong: the parser seeks again and the lock is free (R172, R174). -/
theorem step_invalid_eot {s : State} (hd : s.par.Distinct) {m : Memory} {y : Byte} {q : List Byte} {k : List Turn}
    {r : Rx} {d o c x : Byte} {p : List Byte} (hr : AwaitsEot d o c p x r)
    (hxy : x ≠ checksum d o c (BitVec.ofNat 8 p.length) p ∨ y ≠ s.par.eot) :
    step (rxAt s r .rx m (y :: q) (.rxf :: k)) =
      .next (rxAt s { r with idle := 0#32, wcnt := 0#3, phase := .seek } .none m q k) := by
  refine step_rxf_byte hd (by rw [hr.phase]; rfl) ?_ rfl
  have hv : ¬ trailerValid y (rxAt s r .rx m q k) = true := by
    simp only [trailerValid, rxAt, hr.trl, hr.acc, Bool.and_eq_true, beq_iff_eq]
    rintro ⟨hy, hx⟩
    exact hxy.elim (absurd hx) (absurd hy)
  simp only [rxByteStep, show (rxAt s r .rx m q k).rx.phase = .chkEot from hr.phase]
  exact if_neg hv

/-- Settles O37: the frame is received up to its last byte, which is found valid. -/
theorem noiseThenFrameIsDelivered : Obligations.NoiseThenFrameIsDelivered := by
  intro s g n d o c p q rest hd hlife hphase hw hlock hg ha hn hp hdo hc hq ht
  have hoff : s.rxIn = offered s.par g n d o c p (checksum d o c (BitVec.ofNat 8 p.length) p) s.par.eot q := by
    rw [hq]
    simp [encodeFrame, offered, frameFront]
  obtain ⟨r, hr, hrun⟩ := run_to_last_byte (t := .rxf :: rest) ⟨hd, hlife, hphase, hw, hlock⟩ hg ha hp
    ⟨hn, hdo, hc⟩ hoff (by rw [ht, List.replicate_succ', List.append_assoc]; rfl)
  have hlast := step_of_turn (rxAt s r .rx (storeAll s.buf 0 p) (s.par.eot :: q) (.rxf :: rest)) _ .rxf rest hd rfl
    (takeTurn_valid_eot hr)
  refine ⟨_, (run_add 1 hrun).trans (run_of_step 0 hlast), ?_⟩
  simp only [observeOutputs_rx, observeOutputs_rxIn, observeOutputs_sched, observeOutputs_lock, observeOutputs_pjob]
  by_cases h5 : c = cmdPing
  · simp only [if_pos h5]
    exact ⟨hr.dest, hr.src, hr.cmd, hr.len, rxbufBytes_of_storeAll (by rw [observeOutputs_buf]; rfl), rfl, rfl, rfl,
      fun hne => absurd h5 hne, fun _ => ⟨rfl, by simp only [queuePong, rxAt, hr.src, hr.len]⟩⟩
  · simp only [if_neg h5]
    exact ⟨hr.dest, hr.src, hr.cmd, hr.len, rxbufBytes_of_storeAll (by rw [observeOutputs_buf]; rfl), rfl, rfl, rfl,
      fun _ => rfl, fun he => absurd he h5⟩

/-- Settles O36: it is the case without noise. -/
theorem frameFedIsDelivered : Obligations.FrameFedIsDelivered := by
  intro s n d o c p q rest hd hlife hphase hw hlock ha hn hp hdo hc hq ht
  simpa using noiseThenFrameIsDelivered s [] n d o c p q rest hd hlife hphase hw hlock (by simp) ha hn hp hdo hc
    (by simpa using hq) (by simpa using ht)

/-- Settles O38: the frame is received up to its last byte, which is found wrong. -/
theorem frameWithAWrongTrailerIsDiscarded : Obligations.FrameWithAWrongTrailerIsDiscarded := by
  intro s n d o c x y p q rest hd hlife hphase hw hlock ha hn hp hdo hc hxy hq ht
  have hoff : s.rxIn = offered s.par [] n d o c p x y q := by
    rw [hq]
    simp [offered, frameFront]
  obtain ⟨r, hr, hrun⟩ := run_to_last_byte (t := .rxf :: rest) (g := []) ⟨hd, hlife, hphase, hw, hlock⟩ (by simp) ha hp
    ⟨hn, hdo, hc⟩ hoff (by rw [ht, List.replicate_succ', List.append_assoc]; simp)
  rw [List.length_nil, Nat.zero_add] at hrun
  exact ⟨_, (run_add 1 hrun).trans (run_of_step 0 (step_invalid_eot hd hr hxy)), rfl, rfl, rfl, rfl, rfl, rfl, rfl, rfl⟩

end Sys2Proof.Machine
end

section
/-! PROOFS of the family 40_frame_codec.md, fourth part: two endpoints joined by one transport, the one receiving the
frame the other sends (O47). -/

namespace Sys2Proof.Machine
open Sys2Proof.Safety

/-! ## What has been sent is not taken back -/

theorem hostWrite_obs (a : Addr) (v : Byte) (s : State) : (hostWrite a v s).obs = s.obs := by
  rcases hostWrite_cases a v s with ⟨-, h⟩ | ⟨-, h⟩ | ⟨-, h⟩ | ⟨i, -, -, h⟩ | h
  · rw [h, commandWrite_frame]
  · rcases statusWrite_cases v s with he | ⟨-, he⟩ <;> rw [h, he]
  · rcases frameAckWrite_cases s with ⟨-, he⟩ | ⟨-, he⟩ <;> rw [h, he]
  · rw [h, storeTxbuf_obs]
  · rw [h.rest]

theorem TxResult.sent {s t : State} (h : TxResult s t) : sentBytes s.obs <+: sentBytes t.obs := by
  cases h with
  | grantPong => exact List.prefix_refl _
  | grantHost => exact List.prefix_refl _
  | flushHost => exact List.prefix_refl _
  | flushPong => exact List.prefix_refl _
  | _ => exact List.prefix_append _ _

theorem takeTurn_sent {turn : Turn} {s u : State} (h : takeTurn turn s = .next u) :
    sentBytes s.obs <+: sentBytes u.obs := by
  cases turn with
  | host c =>
    rcases hostTurn_cases h with rfl | rfl | ⟨a, v, -, rfl⟩
    · exact List.prefix_refl _
    · exact List.prefix_refl _
    · rw [hostWrite_obs]
  | ctl => cases h; rw [closeDone_frame]
  | rxf => rw [rxfTurn_frame h]
  | txe =>
    rcases txeTurn_cases s u h with rfl | hr
    · exact List.prefix_refl _
    · exact hr.sent
  | tick => cases h; rw [idleTick_frame]
  | idleAbort => cases h; rw [idleAbort_frame]
  | env e => cases h; rw [envTurn_frame]
  | rst c => cases h; exact List.prefix_refl _

theorem step_sent {s t : State} (h : step s = .next t) : sentBytes s.obs <+: sentBytes t.obs := by
  obtain ⟨-, ⟨-, rfl⟩ | ⟨turn, rest, u, -, hu, rfl⟩⟩ := step_cases s t h
  · exact List.prefix_refl _
  · rw [sentBytes_observeOutputs]
    exact takeTurn_sent (s := { s with sched := rest }) hu

theorem run_sent {n : Nat} {s t : State} (h : Sys2Proof.core.run n s = .next t) :
    sentBytes s.obs <+: sentBytes t.obs := by
  induction n generalizing s with
  | zero => cases h; exact List.prefix_refl _
  | succ n ih =>
    obtain ⟨u, hs, hu⟩ := run_succ_cases h
    exact (step_sent hs).trans (ih hu)

theorem sentSince_self (s : State) : sentSince s s = [] := List.drop_length

theorem sentSince_of_append {s t : State} {bs : List Byte} (h : sentBytes t.obs = sentBytes s.obs ++ bs) :
    sentSince s t = bs := by
  rw [sentSince, h, List.drop_left]

/-- What is sent in two stretches, in the order of the line. -/
theorem sentSince_trans {s u t : State} (hu : sentBytes s.obs <+: sentBytes u.obs)
    (ht : sentBytes u.obs <+: sentBytes t.obs) : sentSince s u ++ sentSince u t = sentSince s t := by
  obtain ⟨x, hx⟩ := hu
  obtain ⟨y, hy⟩ := ht
  rw [sentSince_of_append hx.symm, sentSince_of_append hy.symm]
  exact (sentSince_of_append (by rw [← hy, ← hx, List.append_assoc])).symm

/-! ## One side of the pair runs -/

/-- The machine of a side. -/
def Joined.mover (p : Joined) : Side → State
  | .a => p.a
  | .b => p.b

/-- The pair when the machine of a side has come to `t`: what it has sent is offered to the other (R335). -/
def Joined.moved (p : Joined) (side : Side) (t : State) : Joined :=
  match side with
  | .a => ⟨t, offerBytes (sentSince p.a t) p.b⟩
  | .b => ⟨offerBytes (sentSince p.b t) p.a, t⟩

theorem offerBytes_nil (s : State) : offerBytes [] s = s := by simp [offerBytes]

theorem offerBytes_append (x y : List Byte) (s : State) : offerBytes y (offerBytes x s) = offerBytes (x ++ y) s := by
  simp [offerBytes]

theorem Joined.moved_self (p : Joined) (side : Side) : p.moved side (p.mover side) = p := by
  cases side <;> simp only [moved, mover, sentSince_self, offerBytes_nil]

theorem Joined.moved_moved (p : Joined) (side : Side) {u t : State}
    (hu : sentBytes (p.mover side).obs <+: sentBytes u.obs) (ht : sentBytes u.obs <+: sentBytes t.obs) :
    (p.moved side u).moved side t = p.moved side t := by
  cases side with
  | a => simp only [moved, offerBytes_append, sentSince_trans (s := p.a) hu ht]
  | b => simp only [moved, offerBytes_append, sentSince_trans (s := p.b) hu ht]

theorem Joined.step_eq {p : Joined} {side : Side} {u : State} (h : Machine.step (p.mover side) = .next u) :
    Joined.step side p = .next (p.moved side u) := by
  cases side <;> simp only [mover] at h <;> simp only [Joined.step, h, moved]

/-- When one side alone moves, the pair's run is that machine's run, and the other is offered what it sends. -/
theorem Joined.run_side {p : Joined} {side : Side} {n : Nat} {t : State}
    (h : Sys2Proof.core.run n (p.mover side) = .next t) :
    Joined.run (List.replicate n side) p = .next (p.moved side t) := by
  induction n generalizing p with
  | zero => cases h; exact congrArg _ (p.moved_self side).symm
  | succ n ih =>
    obtain ⟨u, hs, hu⟩ := run_succ_cases h
    have hm : (p.moved side u).mover side = u := by cases side <;> rfl
    rw [List.replicate_succ, Joined.run, Joined.step_eq hs]
    exact (ih (by rw [hm]; exact hu)).trans (congrArg _ (p.moved_moved side (step_sent hs) (run_sent hu)))

theorem Joined.run_append {x y : List Side} {p q : Joined} (h : Joined.run x p = .next q) :
    Joined.run (x ++ y) p = Joined.run y q := by
  induction x generalizing p with
  | nil => cases h; rfl
  | cons side x ih =>
    rw [List.cons_append]
    cases hs : Joined.step side p with
    | next u => simp only [Joined.run, hs] at h ⊢; exact ih h
    | fault r => simp [Joined.run, hs] at h
    | refused r => simp [Joined.run, hs] at h

/-- Settles O47: A's run transmits its job's frame, which B's run receives. -/
theorem joinedEndpointsDeliverTheSentFrame : Obligations.JoinedEndpointsDeliverTheSentFrame := by
  intro p la lb hinv hv hq hl hphase hr hf hpar hlife hseek hw hlock hin hdest hdo hc hsa hsb
  have h := (machineInv_iff p.a).1 hinv
  obtain ⟨h8, h16, h32, -⟩ := h.shape hv
  have hlen : (hostJobPayload p.a).length = p.a.hjob.len.toNat := by simp [hostJobPayload_eq ⟨h8, h16, h32⟩]
  have hlen8 : BitVec.ofNat 8 (hostJobPayload p.a).length = p.a.hjob.len := by simp [hlen]
  obtain ⟨t, hruna, hsent, hres, hdone, hval⟩ : ∃ t : State,
      Sys2Proof.core.run (p.a.cfg.sohN.toNat + p.a.hjob.len.toNat + 10) p.a = .next t ∧
      sentBytes t.obs = sentBytes p.a.obs ++ hostJobFrame p.a ∧
      t.result = 0x00#8 ∧ t.doneFlag = true ∧ t.hjob.valid = false := by
    obtain ⟨x, o, hrun, hsent⟩ := run_host_job h hv hq hl hphase hr hf hsa
    exact ⟨_, hrun, hsent, rfl, rfl, rfl⟩
  have hja := Joined.run_side (p := p) (side := .a) hruna
  have hrunb := frameFedIsDelivered (offerBytes (hostJobFrame p.a) p.b) p.a.cfg.sohN.toNat p.a.hjob.dest p.a.hjob.orig
    p.a.hjob.cmd (hostJobPayload p.a) [] lb (hpar ▸ h.params) hlife hseek hw hlock hdest
    (toNat_pos_of_ne_zero h.sentinels) (by omega) hdo (by rw [hlen8]; exact hpar ▸ hc)
    (by simp [offerBytes, hin, hostJobFrame, hpar]) (by rw [hlen]; exact hsb)
  obtain ⟨u, hrunb, hd, ho, hcmd, hl8, hpay, hin', -, -, hdeliver, hpong⟩ := hrunb
  rw [hlen] at hrunb hpay
  have hb : (p.moved .a t).mover .b = offerBytes (hostJobFrame p.a) p.b :=
    congrArg (offerBytes · p.b) (sentSince_of_append hsent)
  have hjb := Joined.run_side (p := p.moved .a t) (side := .b) (hb ▸ hrunb)
  refine ⟨_, (Joined.run_append hja).trans hjb, hres, hdone, hval, hd, ho, hcmd, hl8.trans hlen8, hpay, hin', ?_⟩
  split
  · exact (hpong ‹_›).1
  · exact hdeliver ‹_›

end Sys2Proof.Machine
end

section
/-! PROOFS of the family 41_receive_fsm.md: one turn of the receiver in each of its phases (O26 to O30), the offered
bytes (O25), what the receive path leaves unchanged (O32), the wait for the PONG (O35), FRAME_ACK (O14) and the idle
timer (O33). -/

namespace Sys2Proof.Machine
open Sys2Proof.Safety

/-! ## The receiver's flags and tests as propositions -/

theorem takesBytes_iff (p : RxPhase) :
    p.takesBytes = true ↔ p = .seek ∨ p = .collect ∨ p = .chkEtx ∨ p = .readChk ∨ p = .chkEot := by
  cases p <;> decide

theorem holdsLock_iff (p : RxPhase) :
    p.holdsLock = true ↔ p = .collect ∨ p = .chkEtx ∨ p = .readChk ∨ p = .chkEot := by
  cases p <;> decide

theorem headerMatch_iff (k : Config.Params) (w : Window) (n : BitVec 3) (b : Byte) :
    headerMatch k w n b = true ↔ n = 5#3 ∧ w.w0 = k.soh ∧ b = k.stx ∧ w.w1 ≠ w.w2 := by
  simp [headerMatch, and_assoc]

theorem acceptDest_iff (s : State) (d : Byte) : acceptDest s d = true ↔ d = s.cfg.station ∨ d = bcastAddr := by
  simp [acceptDest]

theorem trailerValid_iff (b : Byte) (s : State) : trailerValid b s = true ↔ b = s.par.eot ∧ s.rx.trl = s.rx.acc := by
  simp [trailerValid]

theorem idleAbortEnabled_iff (s : State) :
    idleAbortEnabled s = true ↔
      s.par.tRxIdle ≠ 0#32 ∧ s.rx.phase.holdsLock = true ∧ s.par.tRxIdle.toNat ≤ s.rx.idle.toNat := by
  simp [idleAbortEnabled, BitVec.le_def, and_assoc]

/-- The window's count saturates at its five entries (R164). -/
theorem countUp_eq (n : BitVec 3) : countUp n = if n.toNat < 5 then n + 1#3 else 5#3 := by
  revert n
  decide

/-- The idle counter saturates at its greatest value (R333). -/
theorem idleUp_eq (n : BitVec 32) : idleUp n = if n = 4294967295#32 then n else n + 1#32 := by
  unfold idleUp
  split
  · subst n
    rfl
  · bv_omega

/-! ## A turn of the receiver -/

/-- In a phase that takes bytes the turn is the phase's step on the first byte offered (R161). -/
theorem takeTurn_rxf_byte {s : State} {b : Byte} {q : List Byte} (hp : s.rx.phase.takesBytes = true)
    (hq : s.rxIn = b :: q) : takeTurn .rxf s = rxByteStep b { s with rxIn := q } := by
  have ht : rxTake s = { s with rxIn := q } := by simp [rxTake, hq]
  rw [← ht]
  simp only [takeTurn, rxfTurn, hp, hq, if_true]

/-- In RX_WAIT_LOCK the turn is RX.GRANT once the lock is free (R168, R292). -/
theorem takeTurn_rxf_waitLock {s : State} (hp : s.rx.phase = .waitLock) :
    takeTurn .rxf s = .next (if s.lock = .none then rxGrant s else s) := by
  simp [takeTurn, rxfTurn, rxWaitLock, grantRx, hp, RxPhase.takesBytes]

theorem takeTurn_rxf_seek {s : State} {b : Byte} {q : List Byte} (hp : s.rx.phase = .seek) (hq : s.rxIn = b :: q) :
    takeTurn .rxf s = .next (rxSeek b { s with rxIn := q }) := by
  rw [takeTurn_rxf_byte (by rw [hp]; rfl) hq]
  simp only [rxByteStep, hp]

theorem takeTurn_rxf_collect {s : State} {b : Byte} {q : List Byte} (hp : s.rx.phase = .collect)
    (hq : s.rxIn = b :: q) : takeTurn .rxf s = rxCollect b { s with rxIn := q } := by
  rw [takeTurn_rxf_byte (by rw [hp]; rfl) hq]
  simp only [rxByteStep, hp]

theorem takeTurn_rxf_chkEtx {s : State} {b : Byte} {q : List Byte} (hp : s.rx.phase = .chkEtx)
    (hq : s.rxIn = b :: q) : takeTurn .rxf s = .next (rxCheckEtx b { s with rxIn := q }) := by
  rw [takeTurn_rxf_byte (by rw [hp]; rfl) hq]
  simp only [rxByteStep, hp]

theorem takeTurn_rxf_readChk {s : State} {b : Byte} {q : List Byte} (hp : s.rx.phase = .readChk)
    (hq : s.rxIn = b :: q) : takeTurn .rxf s = .next (rxReadChecksum b { s with rxIn := q }) := by
  rw [takeTurn_rxf_byte (by rw [hp]; rfl) hq]
  simp only [rxByteStep, hp]

/-- RX.CHK_EOT as a whole: Dispatch() of a valid frame, else a restart, the lock released in both (R172, R173). -/
theorem takeTurn_rxf_chkEot {s : State} {b : Byte} {q : List Byte} (hp : s.rx.phase = .chkEot)
    (hq : s.rxIn = b :: q) :
    takeTurn .rxf s = .next (
      if b = s.par.eot ∧ s.rx.trl = s.rx.acc then
        if s.rx.hCmd = cmdPing then queuePong (rxRelease { s with rxIn := q })
        else deliverFrame (rxRelease { s with rxIn := q })
      else rxRestart (rxRelease { s with rxIn := q })) := by
  rw [takeTurn_rxf_byte (by rw [hp]; rfl) hq]
  simp only [rxByteStep, hp, rxCheckEot, trailerValid_iff, dispatch_eq]
  split <;> rfl

/-! ## The phases one by one -/

/-- Settles O26: the running parser splits on the header match, whose test is `headerMatch_iff`. -/
theorem seekingShiftsOrLatchesTheHeader : Obligations.SeekingShiftsOrLatchesTheHeader := by
  intro s b q hp hq
  rw [takeTurn_rxf_seek hp hq]
  refine ⟨fun hl => ?discard, fun hl hm => ?header, fun hl hm => ?shift⟩
  case discard => exact congrArg _ (if_pos hl)
  case header =>
    rw [rxSeek_running { s with rxIn := q } hl, if_pos ((headerMatch_iff ..).2 hm)]
    rfl
  case shift =>
    rw [rxSeek_running { s with rxIn := q } hl, if_neg (mt (headerMatch_iff ..).1 hm), ← countUp_eq]
    rfl

/-- Settles O27: the free lock is granted, and RX.GRANT splits on the address filter. -/
theorem grantFiltersTheHeader : Obligations.GrantFiltersTheHeader := by
  intro s hp
  rw [takeTurn_rxf_waitLock hp]
  refine ⟨fun hl ha => ?accepted, fun hl ha => ?dropped, fun hl => ?held⟩
  case accepted =>
    have hz : (if s.rx.hLen = 0x00#8 then RxPhase.chkEtx else .collect) =
        if 0 < s.rx.hLen.toNat then .collect else .chkEtx := by
      by_cases h0 : s.rx.hLen = 0x00#8
      · simp [h0]
      · rw [if_neg h0, if_pos (toNat_pos_of_ne_zero h0)]
    rw [if_pos hl, rxGrant, if_pos ((acceptDest_iff ..).2 ha), hz]
  case dropped => rw [if_pos hl, rxGrant, if_neg (mt (acceptDest_iff ..).1 ha)]
  case held => rw [if_neg hl]

/-- Settles O28: below the declared length the cursor is inside RXBUF, so the byte is stored. -/
theorem collectStoresOnePayloadByte : Obligations.CollectStoresOnePayloadByte := by
  intro s b q hp hq hlt
  have hc : s.rx.cursor ≠ 0xFF#8 := by bv_omega
  refine ⟨_, (takeTurn_rxf_collect hp hq).trans (if_neg hc), rfl, rxbuf_storeRxbuf_same _ _ b, fun x hx => ?_⟩
  exact (readBuf_of_store (storeRxbuf_buf ..) rfl x).trans (if_neg hx)

/-- Settles O29. -/
theorem trailerBytesAreCheckedAndStored : Obligations.TrailerBytesAreCheckedAndStored := by
  intro s b q hq
  refine ⟨fun hp hb => ?etx, fun hp hb => ?wrong, fun hp => ?checksum⟩
  case etx => exact (takeTurn_rxf_chkEtx hp hq).trans (congrArg _ (if_pos hb))
  case wrong => exact (takeTurn_rxf_chkEtx hp hq).trans (congrArg _ (if_neg hb))
  case checksum => exact takeTurn_rxf_readChk hp hq

/-- Settles O30. -/
theorem lastByteDispatchesOrDiscards : Obligations.LastByteDispatchesOrDiscards := by
  intro s b q hp hq
  rw [takeTurn_rxf_chkEot hp hq]
  refine ⟨fun hb ht (hc : s.rx.hCmd = cmdPing) => ?ping, fun hb ht (hc : s.rx.hCmd ≠ cmdPing) => ?deliver,
    fun hv => ?discard⟩
  case ping => rw [if_pos ⟨hb, ht⟩, if_pos hc]; rfl
  case deliver => rw [if_pos ⟨hb, ht⟩, if_neg hc]; rfl
  case discard => rw [if_neg hv]; rfl

/-! ## The offered bytes -/

theorem RxByteResult.rxIn {b : Byte} {u t : State} (h : RxByteResult b u t) : t.rxIn = u.rxIn := by
  rw [h.frame]

theorem rxGrant_rxIn (s : State) : (rxGrant s).rxIn = s.rxIn := by
  unfold rxGrant
  split <;> rfl

/-- A turn in a phase that takes bytes takes exactly the first byte offered. -/
theorem takeTurn_rxf_takes {s t : State} {b : Byte} {q : List Byte} (hp : s.rx.phase.takesBytes = true)
    (hq : s.rxIn = b :: q) (h : takeTurn .rxf s = .next t) : t.rxIn = q := by
  rw [takeTurn_rxf_byte hp hq] at h
  exact (rxByteStep_cases b { s with rxIn := q } t hp h).rxIn

/-- No host write reaches the offered bytes. -/
theorem hostWrite_rxIn (a : Addr) (v : Byte) (s : State) : (hostWrite a v s).rxIn = s.rxIn := by
  rcases hostWrite_cases a v s with ⟨-, h⟩ | ⟨-, h⟩ | ⟨-, h⟩ | ⟨i, -, -, h⟩ | h
  · rw [h, commandWrite_frame]
  · rcases statusWrite_cases v s with he | ⟨-, he⟩ <;> rw [h, he]
  · rcases frameAckWrite_cases s with ⟨-, he⟩ | ⟨-, he⟩ <;> rw [h, he]
  · rw [h, storeTxbuf_rxIn]
  · rw [h.rest]

/-- What a turn that changes the offered bytes is: the receiver takes the first, or the transport offers one more
(R161, R184, log 10). -/
theorem takeTurn_rxIn {turn : Turn} {s u : State} (h : takeTurn turn s = .next u) :
    u.rxIn = s.rxIn ∨
      (turn = .rxf ∧ s.rx.phase.takesBytes = true ∧ ∃ b, s.rxIn = b :: u.rxIn) ∨
      (∃ b, turn = .env (.offer b) ∧ u.rxIn = s.rxIn ++ [b]) := by
  cases turn with
  | host c =>
    rcases hostTurn_cases h with rfl | rfl | ⟨a, v, -, rfl⟩
    · exact .inl rfl
    · exact .inl rfl
    · exact .inl (hostWrite_rxIn a v s)
  | ctl => cases h; rw [closeDone_frame]; exact .inl rfl
  | rxf =>
    rcases rxfTurn_cases s u h with rfl | ⟨-, -, rfl⟩ | ⟨b, q, hq, hp, -⟩
    · exact .inl rfl
    · exact .inl (rxGrant_rxIn s)
    · exact .inr (.inl ⟨rfl, hp, b, by rw [hq, takeTurn_rxf_takes hp hq h]⟩)
  | txe => rw [txeTurn_frame h]; exact .inl rfl
  | tick => cases h; rw [idleTick_frame]; exact .inl rfl
  | idleAbort => cases h; rw [idleAbort_frame]; exact .inl rfl
  | env e =>
    cases h
    cases e with
    | offer b => exact .inr (.inr ⟨b, rfl, rfl⟩)
    | _ => exact .inl rfl
  | rst c => cases h; exact .inl rfl

/-- Settles O25. -/
theorem receiverTakesOneByteInItsPhases : Obligations.ReceiverTakesOneByteInItsPhases := by
  refine ⟨fun c s => ⟨rfl, takesBytes_iff s.rx.phase⟩, fun turn s t h => ⟨?taken, ?changed⟩⟩
  case taken =>
    rintro rfl hp b q hq
    exact takeTurn_rxf_takes hp hq h
  case changed => exact (takeTurn_rxIn h).resolve_left

/-! ## What the receive path leaves unchanged -/

/-- A received byte queues a PONG job only on entering RX_PONG_WAIT (R173). -/
theorem RxByteResult.pjob {b : Byte} {u t : State} (h : RxByteResult b u t) :
    t.pjob = u.pjob ∨ t.rx.phase = .pongWait := by
  cases h with
  | eotPing => exact .inr rfl
  | _ => exact .inl rfl

theorem rxfTurn_pjob {s t : State} (h : rxfTurn s = .next t) : t.pjob = s.pjob ∨ t.rx.phase = .pongWait := by
  rcases rxfTurn_cases s t h with rfl | ⟨-, -, rfl⟩ | ⟨b, q, -, -, hr⟩
  · exact .inl rfl
  · unfold rxGrant
    split <;> exact .inl rfl
  · exact hr.pjob

/-- Only a turn of the host stores to TXBUF (R72). -/
theorem takeTurn_txbuf {turn : Turn} {s u : State} (hn : ∀ c, turn ≠ .host c) (h : takeTurn turn s = .next u) {i : Nat}
    (hi : i ≤ 255) : txbuf u i = txbuf s i := by
  rcases takeTurn_readBuf h (txbufBase + i) with hk | ⟨v, rfl, -⟩ | ⟨b, q, -, -, -, hx, -⟩
  · exact hk
  · exact absurd rfl (hn _)
  · simp only [txbufBase, rxbufBase] at hx
    omega

/-- Settles O32. -/
theorem receivePathTouchesNothingElse : Obligations.ReceivePathTouchesNothingElse := by
  intro turn s t hturn h
  have hn : ∀ c, turn ≠ .host c := by
    rintro c rfl
    simp at hturn
  have hrest : t = { s with rx := t.rx, pjob := t.pjob, lock := t.lock, buf := t.buf, rxIn := t.rxIn } ∧
      (t.pjob = s.pjob ∨ t.rx.phase = .pongWait) := by
    rcases hturn with rfl | rfl | rfl
    · exact ⟨rxfTurn_frame h, rxfTurn_pjob h⟩
    · cases h; rw [idleTick_frame]; exact ⟨rfl, .inl rfl⟩
    · cases h; rw [idleAbort_frame]; exact ⟨rfl, .inl rfl⟩
  exact ⟨hrest.1, fun i hi => takeTurn_txbuf hn h hi, hrest.2.resolve_left⟩

/-! ## The wait for the PONG -/

theorem Inv.running_of_rx {s : State} (h : Inv s) (hp : s.rx.phase ≠ .seek) (hc : s.life ≠ .closing) :
    s.life = .running := by
  have ha := h.alive_of_rx hp
  cases hl : s.life with
  | uninit => exact absurd (.inl hl) ha
  | running => rfl
  | closing => exact absurd hl hc
  | stopped => exact absurd (.inr hl) ha

/-- No COMMAND byte reaches the parser in RX_PONG_WAIT: an OPEN is refused, for the endpoint is running, and a CLOSE
abandons no frame (R177, R263). -/
theorem commandBody_rx_of_pongWait {s : State} (hi : Inv s) (hb : cmdBusy s = false) (hp : s.rx.phase = .pongWait)
    (v : Byte) : (commandBody v s).rx = s.rx := by
  rcases commandBody_cases v s with ⟨c, -, h⟩ | ⟨-, hl, -, -, -, -⟩ | ⟨-, -, ⟨ha, -⟩ | ⟨-, h⟩⟩ | ⟨-, -, k, b, l, -, h⟩
  · rw [h]; rfl
  · exact absurd (hi.running_of_rx (by simp [hp]) ((cmdBusy_false_iff s).1 hb).2) hl
  · rw [hp] at ha; cases ha
  · rw [h]; rfl
  · rw [h]; rfl

/-- No host write reaches the parser in RX_PONG_WAIT. -/
theorem hostWrite_rx_of_pongWait {s : State} (hi : Inv s) (hp : s.rx.phase = .pongWait) (a : Addr) (v : Byte) :
    (hostWrite a v s).rx = s.rx := by
  rcases hostWrite_cases a v s with ⟨-, h⟩ | ⟨-, h⟩ | ⟨-, h⟩ | ⟨i, -, -, h⟩ | h
  · rw [h, commandWrite]
    cases hb : cmdBusy s with
    | true => rw [acceptCommand_busy _ _ hb]
    | false => rw [acceptCommand_idle _ _ hb]; exact commandBody_rx_of_pongWait hi.clearDone hb hp v
  · rcases statusWrite_cases v s with he | ⟨-, he⟩ <;> rw [h, he]
  · rcases frameAckWrite_cases s with ⟨-, he⟩ | ⟨hd, -⟩
    · rw [h, he]
    · rw [hp] at hd; cases hd
  · rw [h, storeTxbuf_rx]
  · rw [h.rest]

theorem rxfTurn_of_pongWait {s : State} (hp : s.rx.phase = .pongWait) : rxfTurn s = .next s := by
  simp [rxfTurn, rxWaitLock, grantRx, hp, RxPhase.takesBytes]

/-- The only turn but a reset that leaves RX_PONG_WAIT is the completed flush of the PONG (R177, R233). -/
theorem takeTurn_pongWait {turn : Turn} {s u : State} (hi : Inv s) (hp : s.rx.phase = .pongWait)
    (hr : ¬ IsReset turn) (h : takeTurn turn s = .next u) :
    u.rx.phase = .pongWait ∨ (u.rx.phase = .deliver ∧ s.lock = .txp ∧ s.tx.phase = .flush ∧ s.inp.flushDone = true ∧
      turn = .txe) := by
  cases turn with
  | host c =>
    rcases hostTurn_cases h with rfl | rfl | ⟨a, v, -, rfl⟩
    · exact .inl hp
    · exact .inl hp
    · exact .inl (by rw [hostWrite_rx_of_pongWait hi hp, hp])
  | ctl => cases h; rw [closeDone_frame]; exact .inl hp
  | rxf => cases (rxfTurn_of_pongWait hp).symm.trans h; exact .inl hp
  | txe =>
    rcases txeTurn_cases s u h with rfl | hx
    · exact .inl hp
    · cases hx with
      | flushPong hf hd hl => exact .inr ⟨rfl, (hi.pong_flush hf hl).1, hf, hd, rfl⟩
      | _ => exact .inl hp
  | tick => cases h; rw [idleTick_frame]; exact .inl hp
  | idleAbort =>
    cases h
    rcases idleAbort_cases s with he | ⟨hx, -, -, -⟩
    · rw [he]; exact .inl hp
    · rw [hp] at hx; cases hx
  | env e => cases h; rw [envTurn_frame]; exact .inl hp
  | rst c => exact absurd ⟨c, rfl⟩ hr

/-- Only RX.COLLECT writes RXBUF (R169). -/
theorem takeTurn_rxbuf {turn : Turn} {s u : State} (hp : s.rx.phase ≠ .collect) (h : takeTurn turn s = .next u)
    (i : Nat) : rxbuf u i = rxbuf s i := by
  rcases takeTurn_readBuf h (rxbufBase + i) with hk | ⟨v, -, -, hx, -⟩ | ⟨b, q, -, -, hc, -⟩
  · exact hk
  · simp only [rxbufBase] at hx
    omega
  · exact absurd hc hp

/-- Settles O35. -/
theorem pongWaitEndsOnlyWithTheReply : Obligations.PongWaitEndsOnlyWithTheReply := by
  intro s t hinv hp h
  obtain ⟨-, ⟨-, rfl⟩ | ⟨turn, rest, u, hs, hu, rfl⟩⟩ := step_cases s t h
  · exact .inr ⟨fun _ _ => rfl, .inl rfl, .inl hp⟩
  by_cases hr : IsReset turn
  · exact .inl ⟨turn, rest, hs, hr⟩
  have hi : Inv { s with sched := rest } := { (machineInv_iff s).1 hinv with }
  rw [observeOutputs_eq]
  refine .inr ⟨fun i _ => takeTurn_rxbuf (by simp [hp]) hu i, ?offered, ?phase⟩
  case offered =>
    rcases takeTurn_rxIn hu with hk | ⟨-, ht, -⟩ | ⟨b, -, hb⟩
    · exact .inl hk
    · rw [hp] at ht; cases ht
    · exact .inr ⟨b, hb⟩
  case phase =>
    refine (takeTurn_pongWait hi hp hr hu).imp_right ?_
    rintro ⟨hd, hl, hf, hx, rfl⟩
    exact ⟨hd, hl, hf, hx, rest, hs⟩

/-! ## FRAME_ACK and the idle timer -/

/-- Settles O14. -/
theorem frameAckEndsTheDelivery : Obligations.FrameAckEndsTheDelivery := by
  intro v s
  have hx : exec (.wrFrameAck v) s = .next (frameAckWrite s) := rfl
  rw [hx]
  rcases frameAckWrite_cases s with ⟨hn, he⟩ | ⟨hd, he⟩ <;> rw [he]
  · exact ⟨fun hd => absurd hd hn, fun _ => rfl⟩
  · exact ⟨fun _ => rfl, fun hn => absurd hd hn⟩

theorem idleAbort_of_not_enabled {s : State} (h : ¬ idleAbortEnabled s = true) : idleAbort s = s := if_neg h

/-- Settles O33: the counter saturates by `idleUp_eq`, and the abort is enabled as `idleAbortEnabled_iff` says. -/
theorem idleCounterAndIdleAbort : Obligations.IdleCounterAndIdleAbort := by
  intro s
  simp only [← holdsLock_iff]
  refine ⟨fun hp => ?counts, fun hp => ⟨?still, ?outside⟩, fun h0 hp hle => ?aborts, fun hd => ?waits⟩
  case counts => exact congrArg _ ((if_pos hp).trans (by rw [idleUp_eq]))
  case still => exact congrArg _ (if_neg hp)
  case outside => exact congrArg _ (idleAbort_of_not_enabled fun he => hp ((idleAbortEnabled_iff s).1 he).2.1)
  case aborts => exact congrArg _ (if_pos ((idleAbortEnabled_iff s).2 ⟨h0, hp, hle⟩))
  case waits =>
    refine congrArg _ (idleAbort_of_not_enabled fun he => ?_)
    obtain ⟨h0, -, hle⟩ := (idleAbortEnabled_iff s).1 he
    exact hd.elim h0 (Nat.not_lt.2 hle)

end Sys2Proof.Machine
end

section
/-! PROOFS of the family 42_transmit.md, first part: the acceptance of a host send (O9, O10, O11), and one turn of the
transmit engine in each of its phases (O40, O41, O42). -/

namespace Sys2Proof.Machine
open Sys2Proof.Safety

/-! ## The ten sends -/

/-- A command that runs SendCommon is a send of SendCommon's destination: the four outcomes are its four branches
(R210). -/
theorem sendsAs_of_sendCommon {i : Instr} {f : State → State} {k : JobKind} {b : Bool} {len : Option Byte} {s : State}
    (hb : cmdBusy s = false) (hx : exec i s = .next (acceptCommand f s))
    (hf : f { s with doneFlag := false } = sendCommon k b len { s with doneFlag := false }) :
    SendsAs i k (sendDest b s) len s := by
  have he : exec i s = .next (sendCommon k b len { s with doneFlag := false }) := by
    rw [hx, acceptCommand_idle f s hb, hf]
  rw [SendsAs, he]
  refine ⟨fun hn => ?closed, fun hr hc => ?command, fun hr hc hl => ?tooLong, fun hr hc l hl => ?accepted⟩
  case closed => exact congrArg _ (if_pos hn)
  case command => exact congrArg _ ((if_neg (not_not.2 hr)).trans (if_pos hc))
  all_goals
    subst hl
    exact congrArg _ ((if_neg (not_not.2 hr)).trans (if_neg hc))

/-- Settles O9: TX_LEN is compared with MAX_LEN (R211). -/
theorem rawSendsCreateTheHostJob : Obligations.RawSendsCreateTheHostJob := by
  intro s hb
  have sends : SendsAs .sendRaw .raw s.txDest (rawLen s) s ∧ SendsAs .bsendRaw .raw 0x00#8 (rawLen s) s :=
    ⟨sendsAs_of_sendCommon (b := false) hb rfl rfl, sendsAs_of_sendCommon (b := true) hb rfl rfl⟩
  refine ⟨fun hle => ?_, fun hgt => ?_⟩
  · rwa [show rawLen s = _ from if_pos hle] at sends
  · rwa [show rawLen s = _ from if_neg (Nat.not_le.2 hgt)] at sends

/-- The scan finds the first 0x00 of the stretch it looks at (R212). -/
theorem firstZeroFrom_of_least {s : State} {n i k : Nat} (hi : i ≤ k) (hk : k < i + n) (hz : txbuf s k = 0x00#8)
    (hm : ∀ j, i ≤ j → j < k → txbuf s j ≠ 0x00#8) : firstZeroFrom s n i = some k := by
  induction n generalizing i with
  | zero => omega
  | succ n ih =>
    unfold firstZeroFrom
    rcases Nat.eq_or_lt_of_le hi with rfl | hlt
    · exact if_pos hz
    · rw [if_neg (hm i le_rfl hlt)]
      exact ih hlt (by omega) fun j hj => hm j (by omega)

/-- The scan finds nothing in a stretch without a 0x00 (R212). -/
theorem firstZeroFrom_of_none {s : State} {n i : Nat} (h : ∀ j, i ≤ j → j < i + n → txbuf s j ≠ 0x00#8) :
    firstZeroFrom s n i = none := by
  induction n generalizing i with
  | zero => rfl
  | succ n ih =>
    unfold firstZeroFrom
    rw [if_neg (h i le_rfl (by omega))]
    exact ih fun j hj hn => h j (by omega) (by omega)

theorem strLen_of_least {s : State} {k : Nat} (hk : k ≤ 255) (hz : txbuf s k = 0x00#8)
    (hm : ∀ j, j < k → txbuf s j ≠ 0x00#8) : strLen s = some (BitVec.ofNat 8 k) := by
  rw [strLen, firstZeroFrom_of_least k.zero_le (by rw [maxLen]; omega) hz fun j _ => hm j]
  rfl

theorem strLen_of_none {s : State} (h : ∀ j, j ≤ 255 → txbuf s j ≠ 0x00#8) : strLen s = none := by
  rw [strLen, firstZeroFrom_of_none fun j _ hj => h j (by rw [maxLen] at hj; omega)]
  rfl

/-- A string send's length is what the scan finds in the state it runs in, where `done` is cleared (R212). -/
theorem stringSends {s : State} {len : Option Byte} (hb : cmdBusy s = false)
    (hl : strLen { s with doneFlag := false } = len) :
    SendsAs .sendStr .str s.txDest len s ∧ SendsAs .bsendStr .str 0x00#8 len s :=
  ⟨sendsAs_of_sendCommon (b := false) hb rfl (by rw [sendStrBody, hl]),
    sendsAs_of_sendCommon (b := true) hb rfl (by rw [bsendStrBody, hl])⟩

/-- Settles O10: the scan over TXBUF finds the least index with 0x00, or none. -/
theorem stringSendsCreateTheHostJob : Obligations.StringSendsCreateTheHostJob := by
  intro s hb
  exact ⟨fun k hk hz hm => stringSends hb (strLen_of_least hk hz hm), fun hn => stringSends hb (strLen_of_none hn)⟩

/-- Settles O11. -/
theorem typedSendsCreateTheHostJob : Obligations.TypedSendsCreateTheHostJob := fun _ hb =>
  ⟨sendsAs_of_sendCommon (b := false) hb rfl rfl, sendsAs_of_sendCommon (b := false) hb rfl rfl,
    sendsAs_of_sendCommon (b := false) hb rfl rfl, sendsAs_of_sendCommon (b := true) hb rfl rfl,
    sendsAs_of_sendCommon (b := true) hb rfl rfl, sendsAs_of_sendCommon (b := true) hb rfl rfl⟩

/-! ## The grants -/

theorem grantTxp_iff (s : State) : grantTxp s = true ↔
    s.lock = .none ∧ s.tx.phase = .idle ∧ s.pjob.valid = true ∧ s.rx.phase ≠ .waitLock := by
  simp [grantTxp, and_assoc]

theorem grantTxh_iff (s : State) : grantTxh s = true ↔
    s.lock = .none ∧ s.tx.phase = .idle ∧ s.hjob.valid = true ∧ s.pjob.valid = false ∧ s.rx.phase ≠ .waitLock := by
  simp [grantTxh, and_assoc]

theorem grantRx_iff (s : State) : grantRx s = true ↔ s.rx.phase = .waitLock ∧ s.lock = .none := by
  simp [grantRx]

/-- In T_IDLE the engine's turn is TX.GRANT (R222). -/
theorem takeTurn_txe_idle {s : State} (hp : s.tx.phase = .idle) : takeTurn .txe s = .next (txGrant s) := by
  simp only [takeTurn, txeTurn, hp, if_true]

/-- Settles O40: a waiting header excludes both transmit grants, and a pending reply the host job's. -/
theorem grantsAreExclusiveAndStartTheFrame : Obligations.GrantsAreExclusiveAndStartTheFrame := by
  intro s
  refine ⟨grantTxp_iff s, grantTxh_iff s, fun hg => ?receiver, fun hg => ?reply, fun hg => ?pong, fun hg => ?host,
    fun hp hq hh => ?none⟩
  case receiver =>
    have hw := ((grantRx_iff s).1 hg).1
    exact ⟨by simp [grantTxp, hw], by simp [grantTxh, hw]⟩
  case reply =>
    obtain ⟨-, -, hq, -⟩ := (grantTxp_iff s).1 hg
    simp [grantTxh, hq]
  case pong =>
    obtain ⟨hl, hp, hq, hr⟩ := (grantTxp_iff s).1 hg
    exact Granted.turn ⟨hl, hp, hr, .inl ⟨rfl, hq⟩⟩
  case host =>
    obtain ⟨hl, hp, hh, hq, hr⟩ := (grantTxh_iff s).1 hg
    exact Granted.turn ⟨hl, hp, hr, .inr ⟨rfl, hh, hq⟩⟩
  case none =>
    rw [takeTurn_txe_idle hp]
    simp [txGrant, hq, hh]

/-! ## One byte, and the flush -/

/-- In a sending phase the engine's turn is the phase's byte step once the transport takes the byte, else it waits
(R223 to R232). -/
theorem takeTurn_txe_sending {s : State} (h0 : s.tx.phase ≠ .idle) (h1 : s.tx.phase ≠ .flush) :
    takeTurn .txe s = if s.inp.txReady then txByteStep s else .next s := by
  simp only [takeTurn, txeTurn, if_neg h0, if_neg h1]

theorem takeTurn_txe_ready {s : State} (h0 : s.tx.phase ≠ .idle) (h1 : s.tx.phase ≠ .flush)
    (hr : s.inp.txReady = true) : takeTurn .txe s = txByteStep s :=
  (takeTurn_txe_sending h0 h1).trans (if_pos hr)

/-- In T_FLUSH the engine's turn completes the job once the transport has every byte on the line (R233). -/
theorem takeTurn_txe_flush {s : State} (hp : s.tx.phase = .flush) :
    takeTurn .txe s = .next (if s.inp.flushDone then txFlushDone s else s) := by
  simp [takeTurn, txeTurn, hp]

/-- Settles O42: the completion splits on the lock. -/
theorem flushCompletesTheJob : Obligations.FlushCompletesTheJob := by
  intro s hp
  rw [takeTurn_txe_flush hp]
  refine ⟨fun hf hl => ?host, fun hf hl => ?pong, fun hf => ?waits⟩
  case host => rw [if_pos hf, txFlushDone, if_pos hl]; rfl
  case pong => rw [if_pos hf, txFlushDone, if_neg (by simp [hl])]; rfl
  case waits => simp [hf]

/-- PB(hjob, i) of a job whose payload is TXBUF (R221). -/
theorem payloadByte_text {s : State} (hl : s.lock = .txh) {i : Nat} (hi : i < s.hjob.len.toNat)
    (hk : s.hjob.kind = .raw ∨ s.hjob.kind = .str) : payloadByte s i = some (txbuf s i) := by
  rcases hk with hk | hk <;> simp [payloadByte, hostPayloadByte, hl, hi, hk]

/-- PB(hjob, i) of a typed job (R221). -/
theorem payloadByte_typed {s : State} (hl : s.lock = .txh) {i : Nat} (hi : i < s.hjob.len.toNat)
    (hk : s.hjob.kind = .i8 ∧ i < 1 ∨ s.hjob.kind = .i16 ∧ i < 2 ∨ s.hjob.kind = .i32 ∧ i < 4) :
    payloadByte s i = some (valByte s.hjob.val i) := by
  rcases hk with ⟨hk, hw⟩ | ⟨hk, hw⟩ | ⟨hk, hw⟩ <;>
    simp only [payloadByte, hostPayloadByte, typedWidth, hl, hi, hk, hw, if_true]

/-- PB(pjob, i) (R221). -/
theorem payloadByte_pong {s : State} (hl : s.lock = .txp) {i : Nat} (hi : i < s.pjob.len.toNat) :
    payloadByte s i = some (rxbuf s i) := by
  simp only [payloadByte, hl, hi, if_true]

theorem withJob_eq {s : State} {j : Job} (hj : currentJob s = some j) (f : Job → State) :
    withJob f s = .next (f j) := by
  simp only [withJob, hj]

theorem txPayloadStep_eq {s : State} {j : Job} (hj : currentJob s = some j) {b : Byte}
    (hb : payloadByte s s.tx.idx.toNat = some b) : txPayloadStep s = .next (txPayloadSend j b s) := by
  simp only [txPayloadStep, hj, hb]

/-- The header ends in the payload, or in ETX when there is none (R228). -/
theorem phaseAfterStx_eq (l : Byte) :
    (if l = 0x00#8 then TxPhase.etx else .payload) = if 0 < l.toNat then .payload else .etx := by
  by_cases hz : l = 0x00#8
  · simp [hz]
  · rw [if_neg hz, if_pos (toNat_pos_of_ne_zero hz)]

/-- Settles O41: the turn is the byte step of the phase. -/
theorem engineSendsItsPhaseByte : Obligations.EngineSendsItsPhaseByte := by
  refine ⟨fun s hl => ⟨by simp only [currentJob, hl], fun i hi => ⟨payloadByte_text hl hi, payloadByte_typed hl hi⟩⟩,
    fun s hl => ⟨by simp only [currentJob, hl]; rfl, fun i hi => payloadByte_pong hl hi⟩, fun s j hr hj => ?bytes,
    fun s hr h0 h1 => (takeTurn_txe_sending h0 h1).trans (by simp [hr])⟩
  case bytes =>
    have byte : ∀ p, s.tx.phase = p → p ≠ .idle → p ≠ .flush → takeTurn .txe s = txByteStep s := by
      rintro p rfl h0 h1
      exact takeTurn_txe_ready h0 h1 hr
    refine ⟨fun hp => ?soh, fun hp => ?dest, fun hp => ?orig, fun hp => ?cmd, fun hp => ?len, fun hp => ?stx,
      fun hp b hb => ?payload, fun hp => ?etx, fun hp => ?chk, fun hp => ?eot⟩ <;>
      rw [byte _ hp nofun nofun] <;> simp only [txByteStep, hp]
    case stx =>
      rw [withJob_eq hj, ← phaseAfterStx_eq]
      rfl
    case payload =>
      rw [txPayloadStep_eq hj hb]
      rfl
    case dest | orig | cmd | len =>
      rw [withJob_eq hj]
      rfl
    all_goals rfl

end Sys2Proof.Machine
end

section
/-! PROOFS of the family 42_transmit.md, second part: what the other agents leave of a transmission (O44), the outputs
(O24), direction control (O50), and an accepted send as a whole (O45). -/

namespace Sys2Proof.Machine
open Sys2Proof.Safety

/-! ## A transmission among the other agents -/

/-- Only the engine transmits. -/
theorem takeTurn_sends_nothing {turn : Turn} {s u : State} (ht : turn ≠ .txe) (h : takeTurn turn s = .next u) :
    sentBytes u.obs = sentBytes s.obs := by
  cases turn with
  | host c =>
    rcases hostTurn_cases h with rfl | rfl | ⟨a, v, -, rfl⟩
    · rfl
    · rfl
    · rw [hostWrite_obs]
  | ctl => cases h; rw [closeDone_frame]
  | rxf => rw [rxfTurn_frame h]
  | txe => exact absurd rfl ht
  | tick => cases h; rw [idleTick_frame]
  | idleAbort => cases h; rw [idleAbort_frame]
  | env e => cases h; rw [envTurn_frame]
  | rst c => cases h; rfl

/-- The configuration is latched by an OPEN alone, which an endpoint that sends refuses: it is running, or closing and
so busy (R261, R262). -/
theorem takeTurn_cfg_of_sending {turn : Turn} {s u : State} (hi : Inv s) (hp : s.tx.phase ≠ .idle)
    (hr : ¬ IsReset turn) (h : takeTurn turn s = .next u) : u.cfg = s.cfg := by
  rcases takeTurn_life h with hk | hc
  · exact hk.cfg
  · cases hc with
    | opened ht hl =>
      subst ht
      cases (takeTurn_hostWriteTurn _ _ s).symm.trans h
      have hb : cmdBusy s = true := by
        by_contra hb
        exact hl (hi.running_of_tx hp ((cmdBusy_false_iff s).1 (Bool.eq_false_iff.2 hb)).2)
      rw [hostWrite_of_busy hb]
    | closes _ _ _ hc => exact hc
    | stopped _ _ _ hc => exact hc
    | reset ht => exact absurd ht hr

/-- The frame is what the service of its job, the parameters and the configuration make it. -/
theorem ServiceKept.currentFrame {s u : State} (h : ServiceKept s u) (hs : Inv s) (hu : Inv u)
    (hp : s.tx.phase ≠ .idle) (hpar : u.par = s.par) (hcfg : u.cfg = s.cfg) : currentFrame u = currentFrame s := by
  obtain ⟨j, hj⟩ : ∃ j, currentJob s = some j := by
    rcases hs.engine.1 hp with hl | hl <;> exact ⟨_, by simp only [currentJob, hl]; rfl⟩
  have hpay : sentPayload u j.len.toNat = sentPayload s j.len.toNat :=
    sentPayload_congr fun i hx => h.payload i (by omega)
  rw [currentFrame_eq hu (h.job.trans hj), currentFrame_eq hs hj, hpay, hpar, hcfg]

/-- While the engine sends, `de` is its enable, which no other agent but a reset changes (R236). -/
theorem takeTurn_de_of_sending {turn : Turn} {s u : State} (hi : Inv s) (hp : s.tx.phase ≠ .idle) (ht : turn ≠ .txe)
    (hr : ¬ IsReset turn) (h : takeTurn turn s = .next u) : u.de = s.de := by
  have hx := (ServiceKept.takeTurn hi hp ht hr h).tx
  rw [(hi.takeTurn turn h).held (by rwa [hx]), hi.held hp, takeTurn_cfg_of_sending hi hp hr h]

/-- Settles O44. -/
theorem transmissionIsNotDisturbed : Obligations.TransmissionIsNotDisturbed := by
  intro turn s t hinv hp ht hr h
  have hi := (machineInv_iff s).1 hinv
  have hk := ServiceKept.takeTurn hi hp ht hr h
  exact ⟨hk.tx, hk.lock, takeTurn_de_of_sending hi hp ht hr h, hk.job,
    hk.currentFrame hi (hi.takeTurn turn h) hp (takeTurn_outside h).1 (takeTurn_cfg_of_sending hi hp hr h),
    takeTurn_sends_nothing ht h⟩

/-! ## The outputs -/

theorem irqLevel_iff (s : State) : irqLevel s = true ↔
    (s.ctrl.getLsbD 1 = true ∧ s.rx.phase = .deliver) ∨ (s.ctrl.getLsbD 2 = true ∧ s.doneFlag = true) := by
  simp [irqLevel, ctrlIeFrame, ctrlIeDone]

theorem sendsByte_iff (p : TxPhase) : p.sendsByte = true ↔ p ≠ .idle ∧ p ≠ .flush := by
  cases p <;> decide

/-- No byte is offered in T_IDLE and T_FLUSH (R234). -/
theorem txByte_of_not_sending {s : State} (h : s.tx.phase.sendsByte = false) : txByte s = none := by
  unfold txByte
  cases hp : s.tx.phase with
  | idle => rfl
  | flush => rfl
  | _ => rw [hp] at h; cases h

/-- The byte step transfers the byte that is offered (R234). -/
theorem txByteStep_obs {s t : State} (hv : s.tx.phase.sendsByte = true) (h : txByteStep s = .next t) :
    ∃ b, txByte s = some b ∧ t.obs = .tx b :: s.obs := by
  cases hp : s.tx.phase <;> simp only [txByteStep, txByte, hp] at h ⊢
  case idle => rw [hp] at hv; cases hv
  case flush => rw [hp] at hv; cases hv
  case dest | orig | cmd | len =>
    obtain ⟨j, hj, rfl⟩ := withJob_cases _ _ _ h
    exact ⟨_, by rw [hj]; rfl, rfl⟩
  case stx =>
    obtain ⟨j, -, rfl⟩ := withJob_cases _ _ _ h
    exact ⟨_, rfl, rfl⟩
  case payload =>
    unfold txPayloadStep at h
    split at h
    · cases h
    · split at h
      · cases h
      · cases h
        exact ⟨_, ‹_›, rfl⟩
  all_goals
    cases h
    exact ⟨_, rfl, rfl⟩

/-- What is offered depends on the service of the job and on the sentinels: in T_PAYLOAD the index is inside the
payload (R229). -/
theorem ServiceKept.txByte {s u : State} (h : ServiceKept s u) (hi : Inv s) (hpar : u.par = s.par) :
    txByte u = txByte s := by
  unfold Machine.txByte
  rw [h.tx, h.job, hpar]
  cases hp : s.tx.phase with
  | payload =>
    have hlt : s.tx.idx.toNat < 255 := by
      rcases hi.engine.1 (by simp [hp]) with hl | hl
      · have := hi.index.2.1 hp hl
        omega
      · have := hi.index.2.2 hp hl
        omega
    exact h.payload _ hlt
  | _ => rfl

/-- Settles O24: the levels are read off, and while a byte is offered no other agent reaches the job it is of. -/
theorem outputsFollowTheState : Obligations.OutputsFollowTheState := by
  refine ⟨fun c s => ⟨irqLevel_iff s, sendsByte_iff _, flushReqLevel_iff s, rfl, fun hv => ?quiet,
    fun t hv hr h => ?transfers⟩, fun c s t turn hinv hv ht hr h => ?steady⟩
  case quiet => exact congrArg (Option.getD · 0x00#8) (txByte_of_not_sending hv)
  case transfers =>
    obtain ⟨h0, h1⟩ := (sendsByte_iff _).1 hv
    obtain ⟨b, hb, ho⟩ := txByteStep_obs hv ((takeTurn_txe_ready h0 h1 hr).symm.trans h)
    have hd : (outputs false c s).txData = b := congrArg (Option.getD · 0x00#8) hb
    rw [hd, ho]
  case steady =>
    have hi := (machineInv_iff s).1 hinv
    have hk := ServiceKept.takeTurn hi ((sendsByte_iff _).1 hv).1 ht hr h
    exact ⟨(congrArg (fun x : Tx => x.phase.sendsByte) hk.tx).trans hv,
      congrArg (Option.getD · 0x00#8) (hk.txByte hi (takeTurn_outside h).1)⟩

/-! ## Direction control -/

theorem Inv.de_of_idle {s : State} (h : Inv s) (hp : s.tx.phase = .idle) : s.de = false :=
  (h.engine_idle fun he => h.engine.2 he hp).2

/-- What a turn from `s` to `u` does to `de` and to the line (R236): only a step that keeps `de` transmits, and only
while the engine sends. -/
inductive DirectionStep (turn : Turn) (s u : State) : Prop
  | granted (hp : s.tx.phase = .idle) (hu : u.tx.phase = .soh) (hd : u.de = s.cfg.deEn)
      (hb : sentBytes u.obs = sentBytes s.obs)
  | kept (hd : u.de = s.de) (hb : sentBytes u.obs ≠ sentBytes s.obs → s.tx.phase ≠ .idle)
  | flushed (hp : s.tx.phase = .flush) (hf : s.inp.flushDone = true) (hu : u.tx.phase = .idle) (hd : u.de = false)
      (hb : sentBytes u.obs = sentBytes s.obs)
  | reset (ht : IsReset turn) (hd : u.de = false) (hb : sentBytes u.obs = sentBytes s.obs)

theorem TxResult.direction {s u : State} (h : TxResult s u) : DirectionStep .txe s u := by
  cases h with
  | grantPong hp => exact .granted hp rfl rfl rfl
  | grantHost hp => exact .granted hp rfl rfl rfl
  | flushHost hp hf => exact .flushed hp hf rfl rfl rfl
  | flushPong hp hf => exact .flushed hp hf rfl rfl rfl
  | _ hp => exact .kept rfl fun _ => by simp [hp]

/-- Another agent than the engine keeps `de`: it is 0 while the engine is idle, and its enable while it sends. -/
theorem takeTurn_de {turn : Turn} {s u : State} (hi : Inv s) (ht : turn ≠ .txe) (hr : ¬ IsReset turn)
    (h : takeTurn turn s = .next u) : u.de = s.de := by
  by_cases hp : s.tx.phase = .idle
  · rw [hi.de_of_idle hp, (hi.takeTurn turn h).de_of_idle (takeTurn_tx_idle hp ht h)]
  · exact takeTurn_de_of_sending hi hp ht hr h

theorem takeTurn_direction {turn : Turn} {s u : State} (hi : Inv s) (h : takeTurn turn s = .next u) :
    DirectionStep turn s u := by
  by_cases ht : turn = .txe
  · subst ht
    rcases txeTurn_cases s u h with rfl | hr
    · exact .kept rfl fun hb => absurd rfl hb
    · exact hr.direction
  · have hb := takeTurn_sends_nothing ht h
    by_cases hr : IsReset turn
    · obtain ⟨c, rfl⟩ := hr
      cases h
      exact .reset ⟨c, rfl⟩ rfl rfl
    · exact .kept (takeTurn_de hi ht hr h) fun hn => absurd hb hn

/-- Settles O50, from what a turn can do to `de`. -/
theorem directionControlBracketsTheFrame : Obligations.DirectionControlBracketsTheFrame := by
  intro s t hinv h
  have hi := (machineInv_iff s).1 hinv
  obtain ⟨-, ⟨-, rfl⟩ | ⟨turn, rest, u, hs, hu, rfl⟩⟩ := step_cases s t h
  · exact ⟨fun h0 h1 => by simp [h0] at h1, fun h1 h0 => by simp [h0] at h1, fun hn => absurd rfl hn, hi.de_of_idle⟩
  · have hi' : Inv { s with sched := rest } := { hi with }
    rw [sentBytes_observeOutputs, observeOutputs_de, observeOutputs_tx]
    cases takeTurn_direction hi' hu with
    | granted hp hx hd hb =>
      exact ⟨fun _ h1 => ⟨hp, hx, hd ▸ h1⟩, fun h1 => by simp [hi.de_of_idle hp] at h1, fun hn => absurd hb hn,
        hi.de_of_idle⟩
    | kept hd hb =>
      exact ⟨fun h0 h1 => by simp [hd, h0] at h1, fun h1 h0 => by simp [hd, h1] at h0,
        fun hn => ⟨hi.held (hb hn), hd.trans (hi.held (hb hn))⟩, hi.de_of_idle⟩
    | flushed hp hf hx hd hb =>
      exact ⟨fun _ h1 => by simp [hd] at h1, fun _ _ => .inl ⟨hp, hf, hx⟩, fun hn => absurd hb hn, hi.de_of_idle⟩
    | reset ht hd hb =>
      exact ⟨fun _ h1 => by simp [hd] at h1, fun _ _ => .inr ⟨turn, rest, hs, ht⟩, fun hn => absurd hb hn,
        hi.de_of_idle⟩

/-! ## An accepted send -/

/-- Settles O45: the host job is granted, transmitted and flushed. -/
theorem hostSendTransmitsExactlyItsFrame : Obligations.HostSendTransmitsExactlyItsFrame := by
  intro s rest hinv hv hq hl hp hr hf hs
  obtain ⟨x, o, hrun, ho⟩ := run_host_job ((machineInv_iff s).1 hinv) hv hq hl hp hr hf hs
  exact ⟨_, hrun, ho, rfl, rfl, rfl, rfl, rfl, rfl, rfl⟩

end Sys2Proof.Machine
end

section
/-! PROOFS of the family 43_lifecycle.md: the machine's faults are met from no state of the invariant (O56), a COMMAND
write (O5), OPEN (O6), CLOSE (O7) and its completion (O8), a STATUS write (O13), and the host's address map (O15,
O16). -/

namespace Sys2Proof.Machine
open Sys2Proof.Safety

/-! ## No fault is met -/

/-- RX.COLLECT is inside RXBUF below the declared length, and no other byte step of the receiver can fault (R169). -/
theorem rxByteStep_answers {s : State} (hc : CursorBound s) (b : Byte) : ∃ t, rxByteStep b s = .next t := by
  unfold rxByteStep
  cases hp : s.rx.phase with
  | collect =>
    have hlt := hc.1 hp
    exact ⟨_, if_neg (by bv_omega)⟩
  | chkEot =>
    dsimp only [rxCheckEot]
    split
    · exact ⟨_, dispatch_eq _⟩
    · exact ⟨_, rfl⟩
  | _ => exact ⟨_, rfl⟩

theorem rxfTurn_answers {s : State} (hc : CursorBound s) : ∃ t, rxfTurn s = .next t := by
  unfold rxfTurn
  split
  · split
    · exact ⟨_, rfl⟩
    · exact rxByteStep_answers (s := rxTake s) hc _
  · exact ⟨_, rfl⟩

/-- An engine that is not idle holds the lock of a job (R221, R48 item 5). -/
theorem Inv.currentJob_defined {s : State} (h : Inv s) (hp : s.tx.phase ≠ .idle) : ∃ j, currentJob s = some j := by
  rcases h.engine.1 hp with hl | hl <;> exact ⟨_, by simp only [currentJob, hl]; rfl⟩

/-- The engine has its job, and in T_PAYLOAD its index is inside the job's payload (R221, R229). -/
theorem Inv.txByteStep_answers {s : State} (h : Inv s) (h0 : s.tx.phase ≠ .idle) : ∃ t, txByteStep s = .next t := by
  obtain ⟨j, hj⟩ := h.currentJob_defined h0
  unfold txByteStep
  cases hp : s.tx.phase with
  | dest | orig | cmd | len | stx => exact ⟨_, withJob_eq hj _⟩
  | payload =>
    obtain ⟨b, hb⟩ := h.payloadByte_defined hj ((engineIndex_payload_iff hp hj).1 h.index)
    exact ⟨_, txPayloadStep_eq hj hb⟩
  | _ => exact ⟨_, rfl⟩

theorem Inv.txeTurn_answers {s : State} (h : Inv s) : ∃ t, Machine.txeTurn s = .next t := by
  unfold Machine.txeTurn
  split
  · exact ⟨_, rfl⟩
  · split
    · exact ⟨_, rfl⟩
    · split
      · exact h.txByteStep_answers ‹_›
      · exact ⟨_, rfl⟩

/-- Every turn of every agent answers: a bus cycle runs an instruction or nothing, and only the receiver and the engine
have a fault to avoid (log 15). -/
theorem Inv.takeTurn_answers {s : State} (h : Inv s) (turn : Turn) : ∃ u, Machine.takeTurn turn s = .next u := by
  cases turn with
  | host c =>
    dsimp only [Machine.takeTurn, Machine.hostTurn]
    split
    · exact exec_answers _ s
    · exact ⟨s, rfl⟩
  | rxf => exact rxfTurn_answers h.cursor
  | txe => exact h.txeTurn_answers
  | _ => exact ⟨_, rfl⟩

/-- Settles O56: the parameters are covered, and the turn to come answers. -/
theorem invariantStatesNeverStop : Obligations.InvariantStatesNeverStop := by
  intro s hinv
  have h := (machineInv_iff s).1 hinv
  cases hs : s.sched with
  | nil => exact ⟨s, step_of_no_turn s h.params hs⟩
  | cons turn rest =>
    have h' : Inv { s with sched := rest } := { h with }
    obtain ⟨u, hu⟩ := h'.takeTurn_answers turn
    exact ⟨_, step_of_turn s u turn rest h.params hs hu⟩

/-! ## A COMMAND write, OPEN, CLOSE and CTL.CLOSE_DONE -/

/-- An accepted COMMAND write clears `done` first, so its effect does not depend on it (R261). -/
theorem commandWrite_clearDone {s : State} (hb : cmdBusy s = false) (v : Byte) :
    commandWrite v { s with doneFlag := false } = commandWrite v s :=
  (acceptCommand_idle (commandBody v) { s with doneFlag := false } hb).trans
    (acceptCommand_idle (commandBody v) s hb).symm

/-- A byte that is no command is rejected for that reason alone (R97). -/
theorem decodeCommand_eq_illegal {v : Byte} (h : ∀ i, decodeCommand v ≠ .ok i) :
    decodeCommand v = .error .illegalCommand :=
  (decodeCommand_illegal_iff v).2 fun hm => ((decodeCommand_ok_iff v).2 hm).elim h

/-- Settles O5: the write runs the command's row, whose own acceptance clears `done`. -/
theorem commandWriteRunsItsRow : Obligations.CommandWriteRunsItsRow := by
  refine ⟨fun v s hb => ?dropped, fun v s i hi => ?row, fun v s hb hn => ?illegal,
    rfl, rfl, rfl, rfl, rfl, rfl, rfl, rfl, rfl, rfl, rfl, rfl⟩
  case dropped => exact congrArg _ (acceptCommand_busy (commandBody v) s hb)
  case row =>
    refine ⟨commandWrite v s, rfl, exec_of_decodeCommand v i s hi, fun hb => ?_⟩
    rw [exec_of_decodeCommand v i _ hi, commandWrite_clearDone hb]
  case illegal =>
    have hi := decodeCommand_eq_illegal hn
    exact congrArg _ ((acceptCommand_idle (commandBody v) s hb).trans (commandBody_illegal hi _))

/-- Settles O6: Open() runs on the state with `done` cleared, and its four checks are its branches (R262). -/
theorem openChecksThenStarts : Obligations.OpenChecksThenStarts := by
  intro s hb
  have hx : exec .cmdOpen s = .next (openBody { s with doneFlag := false }) :=
    congrArg _ (acceptCommand_idle openBody s hb)
  rw [hx]
  unfold openBody
  refine ⟨fun hl => ?running, fun hl hn => ?sentinels, fun hl hn ht => ?transport, fun hl hn ht he hd => ?direction,
    fun hl hn ht hd => ?opened⟩
  case running => exact congrArg _ (if_pos hl)
  case sentinels => exact congrArg _ ((if_neg hl).trans (if_pos hn))
  case transport => exact congrArg _ ((if_neg hl).trans ((if_neg hn).trans (if_pos ht)))
  case direction =>
    have hok : ¬ s.inp.xportOk = false := by simp [ht]
    exact congrArg _ ((if_neg hl).trans ((if_neg hn).trans ((if_neg hok).trans (if_pos ⟨he, hd⟩))))
  case opened =>
    have hok : ¬ s.inp.xportOk = false := by simp [ht]
    have hde : ¬ (s.ctrl.getLsbD 0 = true ∧ s.inp.deOk = false) := fun ⟨he, hf⟩ => by simp [hd he] at hf
    exact congrArg _ ((if_neg hl).trans ((if_neg hn).trans ((if_neg hok).trans (if_neg hde))))

theorem abandonedByClose_iff (p : RxPhase) :
    p.abandonedByClose = true ↔ p = .waitLock ∨ p = .collect ∨ p = .chkEtx ∨ p = .readChk ∨ p = .chkEot := by
  cases p <;> decide

theorem not_abandonedByClose_iff (p : RxPhase) :
    ¬ p.abandonedByClose = true ↔ p = .seek ∨ p = .pongWait ∨ p = .deliver := by
  cases p <;> decide

/-- Settles O7: Close() runs on the state with `done` cleared, and splits on the phase (R263). -/
theorem closeAbandonsTheFrameAndBeginsToClose : Obligations.CloseAbandonsTheFrameAndBeginsToClose := by
  intro s hb
  have hx : exec .cmdClose s = .next (closeBody { s with doneFlag := false }) :=
    congrArg _ (acceptCommand_idle closeBody s hb)
  rw [hx]
  unfold closeBody
  simp only [← abandonedByClose_iff, ← not_abandonedByClose_iff]
  refine ⟨fun hl => ?refused, fun hl hp => ?abandons, fun hl hp => ?closes⟩
  case refused => exact congrArg _ (if_pos hl)
  case abandons => exact congrArg _ ((if_neg (not_not.2 hl)).trans (if_pos hp))
  case closes => exact congrArg _ ((if_neg (not_not.2 hl)).trans (if_neg hp))

theorem closeDoneEnabled_iff (s : State) : closeDoneEnabled s = true ↔
    s.life = .closing ∧ s.rx.phase = .seek ∧ s.lock = .none ∧ s.pjob.valid = false ∧ s.tx.phase = .idle := by
  simp [closeDoneEnabled, and_assoc]

/-- Settles O8. -/
theorem closeDoneStopsTheIdleEndpoint : Obligations.CloseDoneStopsTheIdleEndpoint := by
  intro s
  rw [← closeDoneEnabled_iff]
  exact ⟨fun he => congrArg _ (if_pos he), fun hn => congrArg _ (if_neg hn)⟩

/-- Settles O13. -/
theorem statusWriteClearsDone : Obligations.StatusWriteClearsDone := fun _ _ =>
  ⟨fun h1 => congrArg _ (if_pos h1), fun h0 => congrArg _ (if_neg (Bool.eq_false_iff.1 h0))⟩

/-! ## What an address names -/

theorem toNat_page (a : Addr) : (a.extractLsb' 8 4).toNat = a.toNat / 256 := by
  rw [BitVec.extractLsb'_toNat, Nat.shiftRight_eq_div_pow]
  omega

theorem toNat_lowByte (a : Addr) : (a.extractLsb' 0 8).toNat = a.toNat % 256 := by
  rw [BitVec.extractLsb'_toNat, Nat.shiftRight_zero]

/-- The four ranges of the address space (R61). -/
theorem target_ranges (a : Addr) :
    (a.toNat ≤ 0x0FF ∧ target a = registerTarget (a.extractLsb' 0 8)) ∨
      (0x100 ≤ a.toNat ∧ a.toNat ≤ 0x1FF ∧ target a = .txbuf (a.extractLsb' 0 8)) ∨
      (0x200 ≤ a.toNat ∧ a.toNat ≤ 0x2FE ∧ target a = .rxbuf (a.extractLsb' 0 8)) ∨
      (0x2FF ≤ a.toNat ∧ target a = .reserved) := by
  have page : ∀ k : BitVec 4, a.extractLsb' 8 4 = k ↔ a.toNat / 256 = k.toNat := fun k => by
    rw [← BitVec.toNat_inj, toNat_page]
  have last : a.extractLsb' 0 8 = 0xFF#8 ↔ a.toNat % 256 = 255 := by
    rw [← BitVec.toNat_inj, toNat_lowByte]
    rfl
  unfold target
  split
  case h_1 h =>
    have hk : a.toNat / 256 = 0 := (page 0x0#4).1 h
    exact .inl ⟨by omega, rfl⟩
  case h_2 h =>
    have hk : a.toNat / 256 = 1 := (page 0x1#4).1 h
    exact .inr (.inl ⟨by omega, by omega, rfl⟩)
  case h_3 h =>
    have hk : a.toNat / 256 = 2 := (page 0x2#4).1 h
    split
    · have hl := last.1 ‹_›
      exact .inr (.inr (.inr ⟨by omega, rfl⟩))
    · have hl := mt last.2 ‹_›
      exact .inr (.inr (.inl ⟨by omega, by omega, rfl⟩))
  case h_4 h0 h1 h2 =>
    have n0 : a.toNat / 256 ≠ 0 := mt (page 0x0#4).2 h0
    have n1 : a.toNat / 256 ≠ 1 := mt (page 0x1#4).2 h1
    have n2 : a.toNat / 256 ≠ 2 := mt (page 0x2#4).2 h2
    exact .inr (.inr (.inr ⟨by omega, rfl⟩))

/-- The address of TXBUF[i] (R61). -/
theorem target_of_txbufAddr {i : Nat} (hi : i ≤ 255) :
    ∃ j : Byte, target (BitVec.ofNat 12 (0x100 + i)) = .txbuf j ∧ j.toNat = i := by
  have ha : (BitVec.ofNat 12 (0x100 + i)).toNat = 0x100 + i := Nat.mod_eq_of_lt (by omega)
  rcases target_ranges (BitVec.ofNat 12 (0x100 + i)) with ⟨h, -⟩ | ⟨-, -, ht⟩ | ⟨h, -⟩ | ⟨h, -⟩
  · omega
  · exact ⟨_, ht, by rw [toNat_lowByte]; omega⟩
  · omega
  · omega

/-- The address of RXBUF[i] (R61). -/
theorem target_of_rxbufAddr {i : Nat} (hi : i ≤ 254) :
    ∃ j : Byte, target (BitVec.ofNat 12 (0x200 + i)) = .rxbuf j ∧ j.toNat = i := by
  have ha : (BitVec.ofNat 12 (0x200 + i)).toNat = 0x200 + i := Nat.mod_eq_of_lt (by omega)
  rcases target_ranges (BitVec.ofNat 12 (0x200 + i)) with ⟨h, -⟩ | ⟨-, h, -⟩ | ⟨-, -, ht⟩ | ⟨h, -⟩
  · omega
  · omega
  · exact ⟨_, ht, by rw [toNat_lowByte]; omega⟩
  · omega

theorem registerTarget_reserved : ∀ r : Byte, 0x1C ≤ r.toNat → registerTarget r = .reserved := by decide

/-- The reserved addresses (R62). -/
theorem target_reserved {a : Addr} (h : (0x01C ≤ a.toNat ∧ a.toNat ≤ 0x0FF) ∨ 0x2FF ≤ a.toNat) :
    target a = .reserved := by
  rcases target_ranges a with ⟨hle, ht⟩ | ⟨h1, h2, -⟩ | ⟨h1, h2, -⟩ | ⟨-, ht⟩
  · exact ht.trans (registerTarget_reserved _ (by rw [toNat_lowByte]; omega))
  · omega
  · omega
  · exact ht

/-! ## Host writes -/

/-- A read-only or reserved target, whose write is dropped (R62, R69). -/
def Target.dropsWrites : Target → Bool
  | .result | .rxPhase | .txPhase | .rxDest | .rxSrc | .rxCmd | .rxLen | .cfgStation | .cfgSohN | .cfgFlags => true
  | .rxAcc | .rxTrl | .rxWcnt | .deLevel | .rxbuf _ | .reserved => true
  | _ => false

theorem hostWrite_of_dropsWrites {a : Addr} (h : (target a).dropsWrites = true) (v : Byte) (s : State) :
    hostWrite a v s = s := by
  unfold hostWrite
  cases ht : target a
  case result | rxPhase | txPhase | rxDest | rxSrc | rxCmd | rxLen => rfl
  case cfgStation | cfgSohN | cfgFlags | rxAcc | rxTrl | rxWcnt | deLevel => rfl
  case rxbuf | reserved => rfl
  all_goals
    rw [ht] at h
    cases h

theorem registerTarget_dropsWrites : ∀ r : Byte,
    (0x05 ≤ r.toNat ∧ r.toNat ≤ 0x07) ∨ (0x10 ≤ r.toNat ∧ r.toNat ≤ 0x13) ∨ 0x15 ≤ r.toNat →
      (registerTarget r).dropsWrites = true := by
  decide

/-- The read-only and reserved addresses (R62, R69). -/
theorem target_dropsWrites {a : Addr}
    (h : (0x005 ≤ a.toNat ∧ a.toNat ≤ 0x007) ∨ (0x010 ≤ a.toNat ∧ a.toNat ≤ 0x013) ∨
      (0x015 ≤ a.toNat ∧ a.toNat ≤ 0x0FF) ∨ 0x200 ≤ a.toNat) : (target a).dropsWrites = true := by
  rcases target_ranges a with ⟨hle, ht⟩ | ⟨h1, h2, -⟩ | ⟨-, -, ht⟩ | ⟨-, ht⟩
  · rw [ht]
    exact registerTarget_dropsWrites _ (by rw [toNat_lowByte]; omega)
  · omega
  · rw [ht]; rfl
  · rw [ht]; rfl

/-- While CMD_BUSY = 1 a write to a transmit parameter or to TXBUF is dropped (R68). -/
theorem hostWrite_param_of_busy {a : Addr} {s : State} (hb : cmdBusy s = true) (hp : (target a).isParam = true)
    (v : Byte) : hostWrite a v s = s := by
  unfold hostWrite
  cases ha : target a <;> rw [ha] at hp
  case txDest | txCmd | txLen0 | txLen1 | txVal0 | txVal1 | txVal2 | txVal3 | txbuf => exact unlessBusy_busy _ s hb
  all_goals cases hp

theorem hostWrite_txbufAddr {i : Nat} (hi : i ≤ 255) {s : State} (hb : cmdBusy s = false) (v : Byte) :
    hostWrite (BitVec.ofNat 12 (0x100 + i)) v s = storeTxbuf i v s := by
  obtain ⟨j, ht, rfl⟩ := target_of_txbufAddr hi
  unfold hostWrite
  rw [ht]
  exact unlessBusy_idle _ s hb

/-- While CMD_BUSY = 0 a guarded write is what it guards (R68). -/
theorem exec_wr_of_idle {a : Addr} {v : Byte} {s : State} (hb : cmdBusy s = false) (f : State → State)
    (h : hostWrite a v s = unlessBusy f s) : exec (.wr a v) s = .next (f s) :=
  congrArg _ (h.trans (unlessBusy_idle f s hb))

/-- Bits 2:0 of a byte (R25). -/
theorem ctrlDefined_eq (v : Byte) : ctrlDefined v = 0#5 ++ v.extractLsb' 0 3 := by
  revert v
  decide

/-- Settles O15: the registers' addresses are closed, so `target` runs on them; the ranges are the lemmas above. -/
theorem hostWriteFollowsTheMap : Obligations.HostWriteFollowsTheMap := by
  intro v s
  refine ⟨?ctrl, rfl, rfl, rfl, rfl, rfl, fun hb => ?parameters, fun hb a ha => ?busy, fun a ha => ?dropped⟩
  case ctrl =>
    rw [← ctrlDefined_eq]
    rfl
  case parameters =>
    refine ⟨exec_wr_of_idle hb (fun s => { s with txDest := v }) rfl,
      exec_wr_of_idle hb (fun s => { s with txCmd := v }) rfl,
      exec_wr_of_idle hb (fun s => { s with txLen := setLenByte s.txLen 0 v }) rfl,
      exec_wr_of_idle hb (fun s => { s with txLen := setLenByte s.txLen 1 v }) rfl,
      exec_wr_of_idle hb (fun s => { s with txVal := setValByte s.txVal 0 v }) rfl,
      exec_wr_of_idle hb (fun s => { s with txVal := setValByte s.txVal 1 v }) rfl,
      exec_wr_of_idle hb (fun s => { s with txVal := setValByte s.txVal 2 v }) rfl,
      exec_wr_of_idle hb (fun s => { s with txVal := setValByte s.txVal 3 v }) rfl, fun i hi => ?_⟩
    exact ⟨storeTxbuf i v s, congrArg _ (hostWrite_txbufAddr hi hb v), rfl, txbuf_storeTxbuf_same s i v,
      fun x hx => (readBuf_of_store (storeTxbuf_buf i v s) rfl x).trans (if_neg hx)⟩
  case busy => exact congrArg _ (hostWrite_param_of_busy hb (target_isParam ha) v)
  case dropped => exact congrArg _ (hostWrite_of_dropsWrites (target_dropsWrites ha) v s)

/-! ## Host reads -/

theorem hostRead_txbufAddr {i : Nat} (hi : i ≤ 255) (s : State) :
    hostRead (BitVec.ofNat 12 (0x100 + i)) s = txbuf s i := by
  obtain ⟨j, ht, rfl⟩ := target_of_txbufAddr hi
  unfold hostRead
  rw [ht]

theorem hostRead_rxbufAddr {i : Nat} (hi : i ≤ 254) (s : State) :
    hostRead (BitVec.ofNat 12 (0x200 + i)) s = rxbuf s i := by
  obtain ⟨j, ht, rfl⟩ := target_of_rxbufAddr hi
  unfold hostRead
  rw [ht]

theorem hostRead_reserved {a : Addr} (h : target a = .reserved) (s : State) : hostRead a s = 0x00#8 := by
  unfold hostRead
  rw [h]

/-- A byte put together as STATUS is (R29). -/
def packStatus (lock : BitVec 2) (pend done busy : Bool) (life : BitVec 2) : Byte :=
  ((((0#1 ++ lock) ++ BitVec.ofBool pend) ++ BitVec.ofBool done) ++ BitVec.ofBool busy) ++ life

/-- The fields of such a byte (R29). -/
theorem packStatus_fields : ∀ (lock : BitVec 2) (pend done busy : Bool) (life : BitVec 2),
    (packStatus lock pend done busy life).extractLsb' 0 2 = life ∧
    (packStatus lock pend done busy life).getLsbD 2 = busy ∧
    (packStatus lock pend done busy life).getLsbD 3 = done ∧
    (packStatus lock pend done busy life).getLsbD 4 = pend ∧
    (packStatus lock pend done busy life).extractLsb' 5 2 = lock ∧
    (packStatus lock pend done busy life).getLsbD 7 = false := by
  decide

theorem statusByte_eq_packStatus (s : State) :
    statusByte s = packStatus s.lock.code (framePend s) s.doneFlag (cmdBusy s) s.life.code := rfl

theorem hostRead_status (s : State) : hostRead 0x004#12 s = statusByte s := rfl

/-- Settles O16: the registers' addresses are closed, so `target` runs on them; STATUS is read field by field. -/
theorem hostReadFollowsTheMap : Obligations.HostReadFollowsTheMap := by
  refine ⟨fun _ _ => rfl, fun s => ?_, by decide, by decide, by decide, by decide⟩
  rw [hostRead_status, statusByte_eq_packStatus]
  obtain ⟨hlife, hbusy, hdone, hpend, hlock, hzero⟩ :=
    packStatus_fields s.lock.code (framePend s) s.doneFlag (cmdBusy s) s.life.code
  rw [hbusy, hpend]
  refine ⟨ctrlDefined_eq s.ctrl, rfl, rfl, rfl, hlife, cmdBusy_iff s, hdone, framePend_iff s, hlock, hzero,
    rfl, rfl, rfl, rfl, rfl, rfl, rfl, rfl, rfl, rfl, rfl, rfl, rfl, rfl, rfl, rfl, rfl, rfl, rfl, rfl, rfl, rfl, rfl,
    fun _ hi => hostRead_txbufAddr hi s, fun _ hi => hostRead_rxbufAddr hi s,
    fun _ ha => hostRead_reserved (target_reserved ha) s⟩

end Sys2Proof.Machine
end

section
/-! PROOFS of the family 44_arbitration.md: what each agent's turn can do to the holder of the channel lock (O51). -/

namespace Sys2Proof.Machine
open Sys2Proof.Safety

/-- What a turn from `s` to `u` does to the holder of the channel lock (R291). -/
inductive LockStep (turn : Turn) (s u : State) : Prop
  | kept (h : u.lock = s.lock)
  | grantedRx (hl : s.lock = .none) (hu : u.lock = .rx) (ht : turn = .rxf) (hp : s.rx.phase = .waitLock)
      (hd : s.rx.hDest = s.cfg.station ∨ s.rx.hDest = 0x00#8)
  | grantedHost (hl : s.lock = .none) (hu : u.lock = .txh) (ht : turn = .txe) (hp : s.tx.phase = .idle)
      (hj : s.hjob.valid = true)
  | grantedPong (hl : s.lock = .none) (hu : u.lock = .txp) (ht : turn = .txe) (hp : s.tx.phase = .idle)
      (hj : s.pjob.valid = true)
  | checked (hl : s.lock = .rx) (hu : u.lock = .none) (ht : turn = .rxf)
      (hp : s.rx.phase = .chkEtx ∨ s.rx.phase = .chkEot)
  | aborted (hl : s.lock = .rx) (hu : u.lock = .none) (ht : turn = .idleAbort)
  | closed (hl : s.lock = .rx) (hu : u.lock = .none) (ht : turn = hostWriteTurn 0x003#12 0x02#8)
  | flushed (hl : EngineHolds s) (hu : u.lock = .none) (ht : turn = .txe) (hp : s.tx.phase = .flush)
      (hf : s.inp.flushDone = true)
  | reset (hu : u.lock = .none) (ht : IsReset turn)

/-! ## HOST -/

/-- An endpoint that neither runs nor closes holds no lock, so an OPEN that is accepted finds it free. -/
theorem Inv.lock_of_not_running {s : State} (h : Inv s) (hr : s.life ≠ .running) (hc : s.life ≠ .closing) :
    s.lock = .none := by
  have hq : s.life = .uninit ∨ s.life = .stopped := by
    cases hl : s.life with
    | uninit => exact .inl rfl
    | running => exact absurd hl hr
    | closing => exact absurd hl hc
    | stopped => exact .inr rfl
  obtain ⟨-, -, hlock, -⟩ := h.idle hq
  exact hlock

/-- An accepted COMMAND byte keeps the lock, but for a CLOSE while the receiver holds it (R263). -/
theorem commandBody_lock {s : State} (hi : Inv s) (hb : cmdBusy s = false) (v : Byte) :
    (commandBody v s).lock = s.lock ∨ (v = 0x02#8 ∧ s.lock = .rx ∧ (commandBody v s).lock = .none) := by
  rcases commandBody_cases v s with ⟨c, -, h⟩ | ⟨-, hr, -, -, -, h⟩ | ⟨rfl, -, ⟨-, h⟩ | ⟨-, h⟩⟩ |
    ⟨-, -, k, b, l, -, h⟩ <;> rw [h]
  case inr.inl => exact .inl (hi.lock_of_not_running hr ((cmdBusy_false_iff s).1 hb).2).symm
  case inr.inr.inl.inl =>
    by_cases hl : s.lock = .rx
    · exact .inr ⟨rfl, hl, if_pos hl⟩
    · exact .inl (if_neg hl)
  all_goals exact .inl rfl

theorem commandWrite_lock {s : State} (hi : Inv s) (v : Byte) :
    LockStep (hostWriteTurn addrCommand v) s (commandWrite v s) := by
  unfold commandWrite
  cases hb : cmdBusy s with
  | true => rw [acceptCommand_busy _ _ hb]; exact .kept rfl
  | false =>
    rw [acceptCommand_idle _ _ hb]
    rcases commandBody_lock hi.clearDone hb v with hk | ⟨rfl, hl, hu⟩
    · exact .kept hk
    · exact .closed hl hu rfl

/-- Of the host's writes only a COMMAND write reaches the lock. -/
theorem hostWrite_lock {s : State} (hi : Inv s) (a : Addr) (v : Byte) :
    LockStep (hostWriteTurn a v) s (hostWrite a v s) := by
  rcases hostWrite_cases a v s with ⟨ht, h⟩ | ⟨-, h⟩ | ⟨-, h⟩ | ⟨i, -, -, h⟩ | h
  · obtain rfl := addr_of_target_eq_command a ht
    rw [h]
    exact commandWrite_lock hi v
  · rcases statusWrite_cases v s with he | ⟨-, he⟩ <;> rw [h, he] <;> exact .kept rfl
  · rcases frameAckWrite_cases s with ⟨-, he⟩ | ⟨-, he⟩ <;> rw [h, he] <;> exact .kept rfl
  · rw [h]; exact .kept rfl
  · rw [h.rest]; exact .kept rfl

/-! ## RXF and TXE -/

/-- RX.GRANT takes the lock for a header that passes the address filter, and for no other (R167, R168). -/
theorem rxGrant_lock {s : State} (hp : s.rx.phase = .waitLock) (hl : s.lock = .none) :
    LockStep .rxf s (rxGrant s) := by
  unfold rxGrant
  split
  · rename_i ha
    exact .grantedRx hl rfl rfl hp ((acceptDest_iff s _).1 ha)
  · exact .kept rfl

/-- A byte that ends the receiver's hold is the one checked for ETX or for EOT (R170, R172). -/
theorem RxByteResult.lock {b : Byte} {u t : State} (h : RxByteResult b u t) :
    t.lock = u.lock ∨ ((u.rx.phase = .chkEtx ∨ u.rx.phase = .chkEot) ∧ t.lock = .none) := by
  cases h with
  | etxBad hp => exact .inr ⟨.inl hp, rfl⟩
  | eotPing hp => exact .inr ⟨.inr hp, rfl⟩
  | eotDeliver hp => exact .inr ⟨.inr hp, rfl⟩
  | eotBad hp => exact .inr ⟨.inr hp, rfl⟩
  | _ => exact .inl rfl

theorem rxfTurn_lock {s t : State} (hi : Inv s) (h : rxfTurn s = .next t) : LockStep .rxf s t := by
  rcases rxfTurn_cases s t h with rfl | ⟨hp, hl, rfl⟩ | ⟨b, q, -, -, hr⟩
  · exact .kept rfl
  · exact rxGrant_lock hp hl
  · rcases hr.lock with hk | ⟨hp, hu⟩
    · exact .kept hk
    · have hp' : s.rx.phase = .chkEtx ∨ s.rx.phase = .chkEot := hp
      have hl : s.lock = .rx := hi.rxLock.2 (by rcases hp' with hx | hx <;> rw [hx] <;> rfl)
      exact .checked hl hu rfl hp'

/-- The engine takes the lock in a grant and gives it up in the completed flush (R222, R233). -/
theorem txeTurn_lock {s t : State} (hi : Inv s) (h : txeTurn s = .next t) : LockStep .txe s t := by
  rcases txeTurn_cases s t h with rfl | hr
  · exact .kept rfl
  · cases hr with
    | grantPong hp hl hj => exact .grantedPong hl rfl rfl hp hj
    | grantHost hp hl hj => exact .grantedHost hl rfl rfl hp hj
    | flushHost hp hf hl => exact .flushed (.inl hl) rfl rfl hp hf
    | flushPong hp hf hl => exact .flushed (.inr (hi.pong_flush hp hl).1) rfl rfl hp hf
    | _ => exact .kept rfl

/-! ## Every turn -/

theorem takeTurn_lock {turn : Turn} {s u : State} (hi : Inv s) (h : takeTurn turn s = .next u) :
    LockStep turn s u := by
  cases turn with
  | host c =>
    rcases hostTurn_cases h with rfl | rfl | ⟨a, v, hc, rfl⟩
    · exact .kept rfl
    · exact .kept rfl
    · rw [hc]; exact hostWrite_lock hi a v
  | ctl => cases h; rw [closeDone_frame]; exact .kept rfl
  | rxf => exact rxfTurn_lock hi h
  | txe => exact txeTurn_lock hi h
  | tick => cases h; rw [idleTick_frame]; exact .kept rfl
  | idleAbort =>
    cases h
    rcases idleAbort_cases s with he | ⟨hp, -, -, he⟩ <;> rw [he]
    · exact .kept rfl
    · exact .aborted (hi.rxLock.2 hp) rfl rfl
  | env e => cases h; rw [envTurn_frame]; exact .kept rfl
  | rst c => cases h; exact .reset rfl ⟨c, rfl⟩

/-- Settles O51, from what a turn can do to the holder of the lock. -/
theorem lockChangesOnlyAtItsIntervals : Obligations.LockChangesOnlyAtItsIntervals := by
  intro s t hinv h hne
  obtain ⟨-, ⟨-, rfl⟩ | ⟨turn, rest, u, hs, hu, rfl⟩⟩ := step_cases s t h
  · exact absurd rfl hne
  · have hi : Inv { s with sched := rest } := { (machineInv_iff s).1 hinv with }
    rw [observeOutputs_lock] at hne ⊢
    refine ⟨turn, rest, hs, ?_⟩
    cases takeTurn_lock hi hu with
    | kept hk => exact absurd hk hne
    | grantedRx hl hu ht hp hd => exact .inl ⟨hl, hu, ht, hp, hd⟩
    | grantedHost hl hu ht hp hj => exact .inr (.inl ⟨hl, hu, ht, hp, hj⟩)
    | grantedPong hl hu ht hp hj => exact .inr (.inr (.inl ⟨hl, hu, ht, hp, hj⟩))
    | checked hl hu ht hp => exact .inr (.inr (.inr (.inl ⟨hl, hu, ht, hp⟩)))
    | aborted hl hu ht => exact .inr (.inr (.inr (.inr (.inl ⟨hl, hu, ht⟩))))
    | closed hl hu ht => exact .inr (.inr (.inr (.inr (.inr (.inl ⟨hl, hu, ht⟩)))))
    | flushed hl hu ht hp hf => exact .inr (.inr (.inr (.inr (.inr (.inr (.inl ⟨hl, hu, ht, hp, hf⟩))))))
    | reset hu ht => exact .inr (.inr (.inr (.inr (.inr (.inr (.inr ⟨hu, ht⟩))))))

end Sys2Proof.Machine
end
